-- ==== Sys2Proof/Word.lean ====
section
/-! DEFINITION. The machine words of CORE and their plainest arithmetic (rule R12). -/

namespace Sys2Proof

/-- A byte, `u8` (R12). -/
abbrev Byte := BitVec 8

/-- A 16-bit value, `u16`: the CRC registers and the hex accumulator (R22, R33, R40). -/
abbrev Half := BitVec 16

/-- A 32-bit value: `uval` (`u32`) and `sval` (`i32`) (R51, R52). -/
abbrev Word32 := BitVec 32

/-- The bit pattern of an IEEE 754 binary64 number, the content of a measurement slot (R15, R21). -/
abbrev F64 := BitVec 64

/-- +0.0, bit pattern `0x0000000000000000` (R21, R361). -/
abbrev F64.zero : F64 := 0

end Sys2Proof
end

