-- ==== Sys2Proof/Config.lean ====
section
/-! DEFINITION. The constants the source fixes (R7), the parameters it leaves approximate or open (R8, as the
record `Params` the machine carries unchanged), and the small enumerations every layer uses. -/

namespace Sys2Proof

/-- The protocol selector; 0 is ascii and 1 is hdlc (R20, D3). -/
inductive Protocol where
  | ascii
  | hdlc
  deriving DecidableEq, Repr

/-- The bit that carries a `Protocol` on the `protocol` pin (R20). -/
def Protocol.bit : Protocol → BitVec 1
  | .ascii => 0
  | .hdlc => 1

/-- The state of the HDLC framer (R28). -/
inductive HState where
  | outsideFrame
  | readingFrame
  | foundFrame
  deriving DecidableEq, Repr

/-- The two-bit encoding of `HSTATE`; 3 is never produced (R28, D4). -/
def HState.code : HState → BitVec 2
  | .outsideFrame => 0
  | .readingFrame => 1
  | .foundFrame => 2

/-- The state of the decimal parser (R34). -/
inductive DState where
  | start
  | sign
  | int
  | point
  | frac
  deriving DecidableEq, Repr

/-- A register code `c.d.e`, the key of the ROM (R32, R109). -/
structure Key where
  c : Byte
  d : Byte
  e : Byte
  deriving DecidableEq, Repr

/-- The seven errors (R320). -/
inductive ErrorCode where
  | crcMismatch
  | frameTooSmall
  | frameTooLarge
  | lengthMismatch
  | truncatedStruct
  | unexpectedTag
  | malformedValue
  deriving DecidableEq, Repr

/-- The numeric code `e[2:0]` of a `report` event, 1 to 7; 0 is never emitted (R320, D5). -/
def ErrorCode.code : ErrorCode → BitVec 3
  | .crcMismatch => 1
  | .frameTooSmall => 2
  | .frameTooLarge => 3
  | .lengthMismatch => 4
  | .truncatedStruct => 5
  | .unexpectedTag => 6
  | .malformedValue => 7

/-! Constants of R7. -/

/-- `N_SLOTS`. -/
abbrev nSlots : Nat := 28
/-- `FLAG`, the HDLC frame delimiter. -/
abbrev flagByte : Byte := 0x7E
/-- `MIN_FRAME`, both flags included. -/
abbrev minFrame : Nat := 17
/-- `HDR_LEN`. -/
abbrev hdrLen : Nat := 17
/-- `LEN_POS`, the first of the two header bytes that hold the declared length, bytes 1 and 2 (R8, D29). -/
abbrev lenPos : Nat := 1
/-- `CRCA_POLY`. -/
abbrev crcaPoly : Half := 0xA001
/-- `CRCA_INIT`. -/
abbrev crcaInit : Half := 0x0000
/-- `CRCX_POLY`. -/
abbrev crcxPoly : Half := 0x8408
/-- `CRCX_INIT`. -/
abbrev crcxInit : Half := 0xFFFF
/-- `CRCX_XOROUT`. -/
abbrev crcxXorOut : Half := 0xFFFF
/-- `SCALE_MIN`. -/
abbrev scaleMin : Int := -4
/-- `SCALE_MAX`. -/
abbrev scaleMax : Int := 5
/-- `IMPLICIT_SCALE`, -3 as a signed byte. -/
abbrev implicitScale : Byte := 0xFD
/-- `DEC_FRAC_MAX`. -/
abbrev decFracMax : Nat := 3
/-- `TAG_ARRAY`. -/
abbrev tagArray : Byte := 0x01
/-- `TAG_STRUCT`. -/
abbrev tagStruct : Byte := 0x02
/-- `TAG_U32`. -/
abbrev tagU32 : Byte := 0x06
/-- `TAG_OCTS`. -/
abbrev tagOcts : Byte := 0x09
/-- `TAG_SCALE`. -/
abbrev tagScale : Byte := 0x0F
/-- `TAG_I16`. -/
abbrev tagI16 : Byte := 0x10
/-- `TAG_U16`. -/
abbrev tagU16 : Byte := 0x12
/-- `TAG_UNIT`. -/
abbrev tagUnit : Byte := 0x16
/-- `CODE_LEN`, the octet-string length that makes it a register code. -/
abbrev codeLen : Byte := 6
/-- `LF`. -/
abbrev lf : Byte := 0x0A
/-- `CR`. -/
abbrev cr : Byte := 0x0D
/-- `BANG`, the first byte of a checksum line. -/
abbrev bang : Byte := 0x21
/-- `(`, whose presence makes a line a data line (R104). -/
abbrev lparen : Byte := 0x28
/-- `.`, the separator of key segments and the decimal point (R105). -/
abbrev dot : Byte := 0x2E
/-- `-`, the sign of a decimal (R105). -/
abbrev minus : Byte := 0x2D
/-- `KEY_SEG_MAX` (R8, D16). -/
abbrev keySegMax : Nat := 255

/-- The parameters of R8 that a claim must be able to re-instantiate or quantify over. The machine carries one
such record and no operation writes it (R57). -/
structure Params where
  /-- `BUF_CAP`, legal range 17 to 4097 (D8). -/
  bufCap : Nat
  /-- `ROM_EXTRA`, at most two rows for slots 26 and 27 (R165, D7). -/
  romExtra : List (Key × Fin 28)
  /-- `PUBLISH_BATCH`, 1 to 28, OPEN (R295, D41). -/
  publishBatch : Nat
  /-- `DATA_ID_PREFIX`, three bytes (R202, D15). -/
  dataId : List Byte
  /-- `DEC_INT_MAX` (R173, D18). -/
  decIntMax : Nat
  /-- `UNIT_AMPERE` (R256, D22). -/
  unitAmpere : Byte
  /-- `UNIT_VOLT` (R256, D22). -/
  unitVolt : Byte
  /-- `FCS_LOW_FIRST` (R73, D30). -/
  fcsLowFirst : Bool
  /-- `U16_WRAPS_SIGNED` (R260, D24). -/
  u16WrapsSigned : Bool
  deriving DecidableEq, Repr

/-- The values the spec decides or names as defaults (R8); `publishBatch` has none there and takes the value the
vectors of file 95 use, DESIGN CHOICE (notes/assumptions/3.md). -/
def Params.default : Params where
  bufCap := 60
  romExtra := []
  publishBatch := 28
  dataId := [0x31, 0x2D, 0x30]
  decIntMax := 2147483647
  unitAmpere := 33
  unitVolt := 35
  fcsLowFirst := true
  u16WrapsSigned := false

end Sys2Proof
end

