-- ==== Sys2Proof/Syntax.lean ====
section
/-! DEFINITION. The operation set of CORE: one constructor per mnemonic of rule R100 and per ROM row of rule R162
(spec/opcode_table.json). Operands are the fields a selecting pattern carries (R120) or the operands the rule names. -/

namespace Sys2Proof

/-- One operation of CORE (R100). A token operand `k` names the token register `tok[k]` (R31). -/
inductive Instr where
  -- host command port, format H (R101)
  /-- `RESET p` (R360). -/
  | reset (p : Protocol)
  /-- `NOP`; `reserved` tells `cmd = 0b11` from `cmd = 0b00` (R301). -/
  | nop (reserved : Bool)
  /-- `INVOKE`; its draws stand in the state, not in the encoding (R101, R294, R299). -/
  | invoke
  /-- `ABORT` (R300). -/
  | abort
  /-- `F.DRAIN` (R295). -/
  | fDrain
  /-- `F.DISCARD` (R296). -/
  | fDiscard
  /-- `F.PARSE.A` (R297). -/
  | fParseA
  /-- `F.PARSE.H` (R298). -/
  | fParseH
  -- aggregate
  /-- `AGG.INIT` (R291). -/
  | aggInit
  /-- `AGG.WR s, v` (R292). -/
  | aggWr (slot : Fin 28) (v : F64)
  /-- `AGG.DLV` (R293). -/
  | aggDlv
  -- CRC engines
  /-- `CRCA.CLR` (R141). -/
  | crcaClr
  /-- `CRCA.UPD b` (R142). -/
  | crcaUpd (b : Byte)
  /-- `CRCX.CLR` (R146). -/
  | crcxClr
  /-- `CRCX.UPD b` (R147). -/
  | crcxUpd (b : Byte)
  /-- `CRCX.FIN` (R148). -/
  | crcxFin
  -- ROM
  /-- `ROM.LKP key` (R161). -/
  | romLkp (key : Key)
  -- decimal parser and scaler
  /-- `DEC.PARSE t` (R171). -/
  | decParse (k : Fin 4)
  /-- `DEC.SIGN` (R172). -/
  | decSign
  /-- `DEC.DIGIT`, digit value `d` (R173). -/
  | decDigit (d : BitVec 4)
  /-- `DEC.POINT` (R174). -/
  | decPoint
  /-- `DEC.FRAC`, digit value `d` (R175). -/
  | decFrac (d : BitVec 4)
  /-- `DEC.END` (R176). -/
  | decEnd
  /-- `DEC.BAD`, any byte no other decimal operation takes (R177). -/
  | decBad (b : Byte)
  /-- `SCL.SCALE raw, scale` (R180). -/
  | sclScale (raw : Int) (scale : Int)
  -- ASCII line tokenizer
  /-- `A.CHAR b` (R191). -/
  | aChar (b : Byte)
  /-- `A.EOL` (R192). -/
  | aEol
  /-- `A.OVF`, the dropped byte `b` (R193). -/
  | aOvf (b : Byte)
  /-- `L.CKSUM` (R196). -/
  | lCksum
  /-- `HEX.PARSE` (R197). -/
  | hexParse
  /-- `L.OTHER` (R198). -/
  | lOther
  /-- `L.STRIP` (R199). -/
  | lStrip
  /-- `L.DATA` (R200). -/
  | lData
  /-- `T.SPLIT` (R201). -/
  | tSplit
  /-- `ID.MATCH t` (R202). -/
  | idMatch (k : Fin 4)
  /-- `KEY.PARSE t` (R203). -/
  | keyParse (k : Fin 4)
  -- HDLC framer and validator
  /-- `H.SKIP b` (R221). -/
  | hSkip (b : Byte)
  /-- `H.OPEN` (R222). -/
  | hOpen
  /-- `H.DATA b` (R223). -/
  | hData (b : Byte)
  /-- `H.CLOSE` (R224). -/
  | hClose
  /-- `H.OVF`, the dropped byte `b` (R225). -/
  | hOvf (b : Byte)
  /-- `H.TMO` (R226). -/
  | hTmo
  /-- `H.VALIDATE` (R228). -/
  | hValidate
  /-- `V.SIZE` (R229). -/
  | vSize
  /-- `V.LEN` (R230). -/
  | vLen
  /-- `V.FCS` (R231). -/
  | vFcs
  /-- `V.OK` (R232). -/
  | vOk
  /-- `H.HDR` (R233). -/
  | hHdr
  /-- `H.DATE`, date length `dl` (R234). -/
  | hDate (dl : Byte)
  /-- `ARRAY n` (R235). -/
  | array (n : Byte)
  /-- `H.DONE` (R236). -/
  | hDone
  -- TLV record walker
  /-- `STRUCT cnt` (R252). -/
  | struct (cnt : Byte)
  /-- `STRUCT.N cnt` (R254). -/
  | structN (cnt : Byte)
  /-- `SCALE s` (R255). -/
  | scale (e : Byte)
  /-- `UNIT u` (R256). -/
  | unit (u : Byte)
  /-- `OCTS Ls, s[0..Ls-1]` (R257). -/
  | octs (ls : Byte) (str : List Byte)
  /-- `U32 v` (R258). -/
  | u32 (v : Word32)
  /-- `I16 v` (R259). -/
  | i16 (v : Half)
  /-- `U16 v` (R260). -/
  | u16 (v : Half)
  /-- `UNK`, the unrecognized tag (R261). -/
  | unk (tag : Byte)
  /-- `COMMIT` (R262). -/
  | commit
  -- the 26 fixed rows of the ROM (R162)
  /-- `ROM.ROW.CUM_ACT_IMP`, key 1.8.0 selects slot 0 (R162). -/
  | romRowCumActImp
  /-- `ROM.ROW.CUM_ACT_EXP`, key 2.8.0 selects slot 1 (R162). -/
  | romRowCumActExp
  /-- `ROM.ROW.CUM_REACT_IMP`, key 3.8.0 selects slot 2 (R162). -/
  | romRowCumReactImp
  /-- `ROM.ROW.CUM_REACT_EXP`, key 4.8.0 selects slot 3 (R162). -/
  | romRowCumReactExp
  /-- `ROM.ROW.INST_ACT_IMP`, key 1.7.0 selects slot 4 (R162). -/
  | romRowInstActImp
  /-- `ROM.ROW.INST_ACT_EXP`, key 2.7.0 selects slot 5 (R162). -/
  | romRowInstActExp
  /-- `ROM.ROW.INST_REACT_IMP`, key 3.7.0 selects slot 6 (R162). -/
  | romRowInstReactImp
  /-- `ROM.ROW.INST_REACT_EXP`, key 4.7.0 selects slot 7 (R162). -/
  | romRowInstReactExp
  /-- `ROM.ROW.INST_ACT_IMP_L1`, key 21.7.0 selects slot 8 (R162). -/
  | romRowInstActImpL1
  /-- `ROM.ROW.INST_ACT_IMP_L2`, key 41.7.0 selects slot 9 (R162). -/
  | romRowInstActImpL2
  /-- `ROM.ROW.INST_ACT_IMP_L3`, key 61.7.0 selects slot 10 (R162). -/
  | romRowInstActImpL3
  /-- `ROM.ROW.INST_ACT_EXP_L1`, key 22.7.0 selects slot 11 (R162). -/
  | romRowInstActExpL1
  /-- `ROM.ROW.INST_ACT_EXP_L2`, key 42.7.0 selects slot 12 (R162). -/
  | romRowInstActExpL2
  /-- `ROM.ROW.INST_ACT_EXP_L3`, key 62.7.0 selects slot 13 (R162). -/
  | romRowInstActExpL3
  /-- `ROM.ROW.INST_REACT_IMP_L1`, key 23.7.0 selects slot 14 (R162). -/
  | romRowInstReactImpL1
  /-- `ROM.ROW.INST_REACT_IMP_L2`, key 43.7.0 selects slot 15 (R162). -/
  | romRowInstReactImpL2
  /-- `ROM.ROW.INST_REACT_IMP_L3`, key 63.7.0 selects slot 16 (R162). -/
  | romRowInstReactImpL3
  /-- `ROM.ROW.INST_REACT_EXP_L1`, key 24.7.0 selects slot 17 (R162). -/
  | romRowInstReactExpL1
  /-- `ROM.ROW.INST_REACT_EXP_L2`, key 44.7.0 selects slot 18 (R162). -/
  | romRowInstReactExpL2
  /-- `ROM.ROW.INST_REACT_EXP_L3`, key 64.7.0 selects slot 19 (R162). -/
  | romRowInstReactExpL3
  /-- `ROM.ROW.CURRENT_L1`, key 31.7.0 selects slot 20 (R162). -/
  | romRowCurrentL1
  /-- `ROM.ROW.CURRENT_L2`, key 51.7.0 selects slot 21 (R162). -/
  | romRowCurrentL2
  /-- `ROM.ROW.CURRENT_L3`, key 71.7.0 selects slot 22 (R162). -/
  | romRowCurrentL3
  /-- `ROM.ROW.VOLTAGE_L1`, key 32.7.0 selects slot 23 (R162). -/
  | romRowVoltageL1
  /-- `ROM.ROW.VOLTAGE_L2`, key 52.7.0 selects slot 24 (R162). -/
  | romRowVoltageL2
  /-- `ROM.ROW.VOLTAGE_L3`, key 72.7.0 selects slot 25 (R162). -/
  | romRowVoltageL3
  deriving DecidableEq, Repr

end Sys2Proof
end

