-- ==== Sys2Proof/WellFormed.lean ====
section
/-! DEFINITION. When an operation's operands are ones its pattern or its rule admits. -/

namespace Sys2Proof

/-- A decimal digit value, 0 to 9; `d = 10..15` is not a digit operation (opcode table, R105). -/
def isDigitValue (d : BitVec 4) : Bool := decide (d.toNat < 10)

/-- The tags the walker recognizes at an element position (R253). -/
def isKnownTag (t : Byte) : Bool :=
  t == tagStruct || t == tagU32 || t == tagOcts || t == tagScale || t == tagI16 || t == tagU16 || t == tagUnit

/-- Well-formedness of an operation's operands, from the row of the opcode table and the rule of each. -/
def Instr.wf : Instr → Bool
  | .decDigit d => isDigitValue d
  | .decFrac d => isDigitValue d
  -- a digit selects DEC.DIGIT or DEC.FRAC in every state (R177)
  | .decBad b => !(decide (0x30 ≤ b.toNat) && decide (b.toNat ≤ 0x39))
  | .sclScale raw e =>
    decide (-32768 ≤ raw) && decide (raw ≤ 4294967295) && decide (scaleMin ≤ e) && decide (e ≤ scaleMax)
  | .aChar b => b != lf
  | .hSkip b => b != flagByte
  | .hData b => b != flagByte
  | .octs ls str => str.length == ls.toNat
  | .unk t => !isKnownTag t
  | .reset _ | .nop _ | .invoke | .abort | .fDrain | .fDiscard | .fParseA | .fParseH | .aggInit |
  .aggWr _ _ | .aggDlv | .crcaClr | .crcaUpd _ | .crcxClr | .crcxUpd _ | .crcxFin | .romLkp _ |
  .decParse _ | .decSign | .decPoint | .decEnd | .aEol | .aOvf _ | .lCksum | .hexParse | .lOther |
  .lStrip | .lData | .tSplit | .idMatch _ | .keyParse _ | .hOpen | .hClose | .hOvf _ | .hTmo |
  .hValidate | .vSize | .vLen | .vFcs | .vOk | .hHdr | .hDate _ | .array _ | .hDone | .struct _ |
  .structN _ | .scale _ | .unit _ | .u32 _ | .i16 _ | .u16 _ | .commit | .romRowCumActImp |
  .romRowCumActExp | .romRowCumReactImp | .romRowCumReactExp | .romRowInstActImp | .romRowInstActExp |
  .romRowInstReactImp | .romRowInstReactExp | .romRowInstActImpL1 | .romRowInstActImpL2 |
  .romRowInstActImpL3 | .romRowInstActExpL1 | .romRowInstActExpL2 | .romRowInstActExpL3 |
  .romRowInstReactImpL1 | .romRowInstReactImpL2 | .romRowInstReactImpL3 | .romRowInstReactExpL1 |
  .romRowInstReactExpL2 | .romRowInstReactExpL3 | .romRowCurrentL1 | .romRowCurrentL2 |
  .romRowCurrentL3 | .romRowVoltageL1 | .romRowVoltageL2 | .romRowVoltageL3 => true

end Sys2Proof
end

