-- ==== Sys2Proof/Decode.lean ====
section
/-! DEFINITION. The decoders of CORE's input alphabets (file 30), the encoder written from the same tables, and the
table-word reading of spec/opcode_table.json. The same byte decodes differently by position (R118): a `Ctx` names
the position. -/

namespace Sys2Proof

/-! Byte classes (R105). -/

/-- `DELIM` of `T.SPLIT`: one of the four delimiters (R105, R201). -/
def isDelim (b : Byte) : Bool := b == 0x28 || b == 0x29 || b == 0x2A || b == 0x3A

/-- `DIGIT` of `DEC.PARSE` and `KEY.PARSE` (R105). -/
def isDigit (b : Byte) : Bool := decide (0x30 ≤ b.toNat) && decide (b.toNat ≤ 0x39)

/-- The value of a decimal digit byte, `b - 0x30` (R105). -/
def digitValue (b : Byte) : Nat := b.toNat - 0x30

/-- The value of a `HEXDIGIT`, none for a `STOP` byte (R105). -/
def hexValue (b : Byte) : Option (BitVec 4) :=
  if 0x30 ≤ b.toNat ∧ b.toNat ≤ 0x39 then some (BitVec.ofNat 4 (b.toNat - 0x30))
  else if 0x41 ≤ b.toNat ∧ b.toNat ≤ 0x46 then some (BitVec.ofNat 4 (b.toNat - 0x37))
  else if 0x61 ≤ b.toNat ∧ b.toNat ≤ 0x66 then some (BitVec.ofNat 4 (b.toNat - 0x57))
  else none

/-! Byte order: integers of a TLV payload are big-endian (R71). -/

/-- Two bytes, the first the more significant. -/
def be16 (b0 b1 : Byte) : Half := b0 ++ b1

/-- Four bytes, the first the most significant. -/
def be32 (b0 b1 b2 b3 : Byte) : Word32 := b0 ++ b1 ++ b2 ++ b3

/-! Selection, shared by the decoder and by the machine's sequencing. -/

/-- What a host command selects; `0b11` is reserved and performs `NOP` (R101). -/
def commandSel (c : BitVec 2) : Instr :=
  if c = 0 then .nop false else if c = 1 then .invoke else if c = 2 then .abort else .nop true

/-- The choice of format A (R103). -/
inductive AsciiSel where
  | ovf
  | eol
  | char
  deriving DecidableEq, Repr

/-- Format A: a full buffer selects `A.OVF` whatever the byte, else `0x0A` selects `A.EOL`, else `A.CHAR` (R103). -/
def asciiSel (full : Bool) (b : Byte) : AsciiSel :=
  if full then .ovf else if b = lf then .eol else .char

/-- The choice of format F (R106). -/
inductive HdlcSel where
  | skip
  | openFrame
  | data
  | closeFrame
  | ovf
  | noByte
  deriving DecidableEq, Repr

/-- Format F: the byte decoded together with `HSTATE`; no byte is taken in `FOUND_FRAME` (R106). -/
def hdlcSel (h : HState) (full : Bool) (b : Byte) : HdlcSel :=
  match h with
  | .outsideFrame => if b = flagByte then .openFrame else .skip
  | .readingFrame => if full then .ovf else if b = flagByte then .closeFrame else .data
  | .foundFrame => .noByte

/-- The choice among the decimal character operations (R177). -/
inductive DecSel where
  | sign
  | digit
  | point
  | frac
  | bad
  deriving DecidableEq, Repr

/-- The selection table of R177. -/
def decSel (d : DState) (b : Byte) : DecSel :=
  if isDigit b then
    match d with
    | .start => .digit
    | .sign => .digit
    | .int => .digit
    | .point => .frac
    | .frac => .frac
  else if b = minus ∧ d = .start then .sign
  else if b = dot ∧ d = .int then .point
  else .bad

/-- The choice at an element position (R253). -/
inductive TagSel where
  | structN
  | scale
  | unit
  | octs
  | u32
  | i16
  | u16
  | unk
  deriving DecidableEq, Repr

/-- The walker's tag dispatch, seven tags and a default (R253). -/
def tagSel (t : Byte) : TagSel :=
  if t = tagStruct then .structN
  else if t = tagScale then .scale
  else if t = tagUnit then .unit
  else if t = tagOcts then .octs
  else if t = tagU32 then .u32
  else if t = tagI16 then .i16
  else if t = tagU16 then .u16
  else .unk

/-- Whether a stripped line holds a `(` (R104). -/
def hasParen (line : List Byte) : Bool := line.contains lparen

/-- The stripped form of a completed line: the final `0x0A` and one `0x0D` before it removed (R199). -/
def stripLine (line : List Byte) : List Byte :=
  if line.dropLast.getLast? = some cr then line.dropLast.dropLast else line.dropLast

/-- A row of the fixed ROM: its key, its slot, and the operation that stands for it (R162). -/
structure RomRow where
  key : Key
  slot : Fin 28
  instr : Instr
  deriving DecidableEq, Repr

/-- `ROM_FIXED`, slots 0 to 12 (R162). -/
def romRowsLow : List RomRow :=
  [⟨⟨1, 8, 0⟩, 0, .romRowCumActImp⟩,
   ⟨⟨2, 8, 0⟩, 1, .romRowCumActExp⟩,
   ⟨⟨3, 8, 0⟩, 2, .romRowCumReactImp⟩,
   ⟨⟨4, 8, 0⟩, 3, .romRowCumReactExp⟩,
   ⟨⟨1, 7, 0⟩, 4, .romRowInstActImp⟩,
   ⟨⟨2, 7, 0⟩, 5, .romRowInstActExp⟩,
   ⟨⟨3, 7, 0⟩, 6, .romRowInstReactImp⟩,
   ⟨⟨4, 7, 0⟩, 7, .romRowInstReactExp⟩,
   ⟨⟨21, 7, 0⟩, 8, .romRowInstActImpL1⟩,
   ⟨⟨41, 7, 0⟩, 9, .romRowInstActImpL2⟩,
   ⟨⟨61, 7, 0⟩, 10, .romRowInstActImpL3⟩,
   ⟨⟨22, 7, 0⟩, 11, .romRowInstActExpL1⟩,
   ⟨⟨42, 7, 0⟩, 12, .romRowInstActExpL2⟩]

/-- `ROM_FIXED`, slots 13 to 25 (R162). -/
def romRowsHigh : List RomRow :=
  [⟨⟨62, 7, 0⟩, 13, .romRowInstActExpL3⟩,
   ⟨⟨23, 7, 0⟩, 14, .romRowInstReactImpL1⟩,
   ⟨⟨43, 7, 0⟩, 15, .romRowInstReactImpL2⟩,
   ⟨⟨63, 7, 0⟩, 16, .romRowInstReactImpL3⟩,
   ⟨⟨24, 7, 0⟩, 17, .romRowInstReactExpL1⟩,
   ⟨⟨44, 7, 0⟩, 18, .romRowInstReactExpL2⟩,
   ⟨⟨64, 7, 0⟩, 19, .romRowInstReactExpL3⟩,
   ⟨⟨31, 7, 0⟩, 20, .romRowCurrentL1⟩,
   ⟨⟨51, 7, 0⟩, 21, .romRowCurrentL2⟩,
   ⟨⟨71, 7, 0⟩, 22, .romRowCurrentL3⟩,
   ⟨⟨32, 7, 0⟩, 23, .romRowVoltageL1⟩,
   ⟨⟨52, 7, 0⟩, 24, .romRowVoltageL2⟩,
   ⟨⟨72, 7, 0⟩, 25, .romRowVoltageL3⟩]

/-- `ROM_FIXED`, the 26 rows in the source's order (R162). -/
def romFixed : List RomRow := romRowsLow ++ romRowsHigh

/-- The fixed row of a key, if there is one (R161). -/
def romFixedRow (key : Key) : Option RomRow := romFixed.find? fun r => r.key == key

/-! The decoder. -/

/-- The position a unit of input is decoded at: the `context` of the opcode table (R118, R120). -/
inductive Ctx where
  /-- the command port, `cmd` zero-extended to a byte (R101) -/
  | command
  /-- an ASCII stream byte; `full` says `len = BUF_CAP` (R103) -/
  | asciiByte (full : Bool)
  /-- an HDLC stream byte in framer state `h` (R106) -/
  | hdlcByte (h : HState) (full : Bool)
  /-- a completed line, all its bytes (R104) -/
  | line
  /-- a byte of the value token in parser state `d` (R177) -/
  | tokenByte (d : DState)
  /-- the first three bytes of token `k`, against the default prefix (R202) -/
  | dataId (k : Fin 4)
  /-- a 24-bit key (R109) -/
  | romKey
  /-- the byte at index 17 of a frame (R234) -/
  | dateLength
  /-- the array position (R235) -/
  | arrayTag
  /-- a structure start (R252) -/
  | structTag
  /-- an element position (R253) -/
  | element
  deriving DecidableEq, Repr

/-- Why no operation is decoded. -/
inductive DecodeError where
  /-- fewer bytes than the element's encoding has -/
  | truncated
  /-- a byte above 3 is no `cmd[1:0]` value (R101) -/
  | notACommand (b : Byte)
  /-- no byte is taken from `Q` in `FOUND_FRAME` (R106) -/
  | byteInFoundFrame
  /-- the bytes are not the data-object prefix (R202) -/
  | notDataId
  /-- the key is in no fixed row (R162) -/
  | noRomRow
  /-- a required tag is missing: not `0x01` at the array position, not `0x02` at a structure start (R116) -/
  | wrongTag (t : Byte)
  deriving DecidableEq, Repr

/-- One element of format T (R108, R253): the operation and the bytes after it. -/
def decodeElement : List Byte → Except DecodeError (Instr × List Byte)
  | [] => .error .truncated
  | t :: bs =>
    match tagSel t, bs with
    | .structN, c :: r => .ok (.structN c, r)
    | .scale, e :: r => .ok (.scale e, r)
    | .unit, u :: r => .ok (.unit u, r)
    | .octs, ls :: r =>
      if ls.toNat ≤ r.length then .ok (.octs ls (r.take ls.toNat), r.drop ls.toNat) else .error .truncated
    | .u32, b0 :: b1 :: b2 :: b3 :: r => .ok (.u32 (be32 b0 b1 b2 b3), r)
    | .i16, b0 :: b1 :: r => .ok (.i16 (be16 b0 b1), r)
    | .u16, b0 :: b1 :: r => .ok (.u16 (be16 b0 b1), r)
    | .unk, r => .ok (.unk t, r)
    | _, _ => .error .truncated

/-- Decode at a position: the operation and the bytes after it, or the reason there is none (file 30). -/
def decode (ctx : Ctx) (bytes : List Byte) : Except DecodeError (Instr × List Byte) :=
  match ctx, bytes with
  | .command, b :: r =>
    if b.toNat < 4 then .ok (commandSel (b.truncate 2), r) else .error (.notACommand b)
  | .asciiByte full, b :: r =>
    match asciiSel full b with
    | .ovf => .ok (.aOvf b, r)
    | .eol => .ok (.aEol, r)
    | .char => .ok (.aChar b, r)
  | .hdlcByte h full, b :: r =>
    match hdlcSel h full b with
    | .skip => .ok (.hSkip b, r)
    | .openFrame => .ok (.hOpen, r)
    | .data => .ok (.hData b, r)
    | .closeFrame => .ok (.hClose, r)
    | .ovf => .ok (.hOvf b, r)
    | .noByte => .error .byteInFoundFrame
  | .line, b :: r =>
    if b = bang then .ok (.lCksum, r)
    else if hasParen (stripLine (b :: r)) then .ok (.lData, [])
    else .ok (.lOther, [])
  | .tokenByte d, b :: r =>
    match decSel d b with
    | .sign => .ok (.decSign, r)
    | .digit => .ok (.decDigit (b.truncate 4), r)
    | .point => .ok (.decPoint, r)
    | .frac => .ok (.decFrac (b.truncate 4), r)
    | .bad => .ok (.decBad b, r)
  -- the end of the token selects DEC.END (R177)
  | .tokenByte _, [] => .ok (.decEnd, [])
  | .dataId k, b0 :: b1 :: b2 :: r =>
    if [b0, b1, b2] = Params.default.dataId then .ok (.idMatch k, r) else .error .notDataId
  | .romKey, c :: d :: e :: r =>
    match romFixedRow ⟨c, d, e⟩ with
    | some row => .ok (row.instr, r)
    | none => .error .noRomRow
  | .dateLength, dl :: r => .ok (.hDate dl, r)
  | .arrayTag, t :: r =>
    if t = tagArray then
      match r with
      | n :: r' => .ok (.array n, r')
      | [] => .error .truncated
    else .error (.wrongTag t)
  | .structTag, t :: r =>
    if t = tagStruct then
      match r with
      | n :: r' => .ok (.struct n, r')
      | [] => .error .truncated
    else .error (.wrongTag t)
  | .element, bs => decodeElement bs
  | _, _ => .error .truncated

/-! The encoder. -/

/-- The three bytes of a key, `c` first (R109). -/
def keyBytes (k : Key) : List Byte := [k.c, k.d, k.e]

/-- The bytes that select an operation, from the encoding tables of file 30; none for an operation that no bit
pattern of its own selects (`internal` rows, and the line and token operations whose row is a class of lines). -/
def encode : Instr → Option (List Byte)
  | .nop reserved => some [if reserved then 3 else 0]
  | .invoke => some [1]
  | .abort => some [2]
  | .decSign => some [minus]
  | .decDigit d => some [(3 : BitVec 4) ++ d]
  | .decPoint => some [dot]
  | .decFrac d => some [(3 : BitVec 4) ++ d]
  | .decBad b => some [b]
  | .aChar b => some [b]
  | .aEol => some [lf]
  | .aOvf b => some [b]
  | .lCksum => some [bang]
  | .idMatch _ => some Params.default.dataId
  | .hSkip b => some [b]
  | .hOpen => some [flagByte]
  | .hData b => some [b]
  | .hClose => some [flagByte]
  | .hOvf b => some [b]
  | .hDate dl => some [dl]
  | .array n => some [tagArray, n]
  | .struct cnt => some [tagStruct, cnt]
  | .structN cnt => some [tagStruct, cnt]
  | .scale e => some [tagScale, e]
  | .unit u => some [tagUnit, u]
  | .octs ls str => some (tagOcts :: ls :: str)
  | .u32 v => some [tagU32, v.extractLsb' 24 8, v.extractLsb' 16 8, v.extractLsb' 8 8, v.extractLsb' 0 8]
  | .i16 v => some [tagI16, v.extractLsb' 8 8, v.extractLsb' 0 8]
  | .u16 v => some [tagU16, v.extractLsb' 8 8, v.extractLsb' 0 8]
  | .unk t => some [t]
  | .romRowCumActImp => some (keyBytes ⟨1, 8, 0⟩)
  | .romRowCumActExp => some (keyBytes ⟨2, 8, 0⟩)
  | .romRowCumReactImp => some (keyBytes ⟨3, 8, 0⟩)
  | .romRowCumReactExp => some (keyBytes ⟨4, 8, 0⟩)
  | .romRowInstActImp => some (keyBytes ⟨1, 7, 0⟩)
  | .romRowInstActExp => some (keyBytes ⟨2, 7, 0⟩)
  | .romRowInstReactImp => some (keyBytes ⟨3, 7, 0⟩)
  | .romRowInstReactExp => some (keyBytes ⟨4, 7, 0⟩)
  | .romRowInstActImpL1 => some (keyBytes ⟨21, 7, 0⟩)
  | .romRowInstActImpL2 => some (keyBytes ⟨41, 7, 0⟩)
  | .romRowInstActImpL3 => some (keyBytes ⟨61, 7, 0⟩)
  | .romRowInstActExpL1 => some (keyBytes ⟨22, 7, 0⟩)
  | .romRowInstActExpL2 => some (keyBytes ⟨42, 7, 0⟩)
  | .romRowInstActExpL3 => some (keyBytes ⟨62, 7, 0⟩)
  | .romRowInstReactImpL1 => some (keyBytes ⟨23, 7, 0⟩)
  | .romRowInstReactImpL2 => some (keyBytes ⟨43, 7, 0⟩)
  | .romRowInstReactImpL3 => some (keyBytes ⟨63, 7, 0⟩)
  | .romRowInstReactExpL1 => some (keyBytes ⟨24, 7, 0⟩)
  | .romRowInstReactExpL2 => some (keyBytes ⟨44, 7, 0⟩)
  | .romRowInstReactExpL3 => some (keyBytes ⟨64, 7, 0⟩)
  | .romRowCurrentL1 => some (keyBytes ⟨31, 7, 0⟩)
  | .romRowCurrentL2 => some (keyBytes ⟨51, 7, 0⟩)
  | .romRowCurrentL3 => some (keyBytes ⟨71, 7, 0⟩)
  | .romRowVoltageL1 => some (keyBytes ⟨32, 7, 0⟩)
  | .romRowVoltageL2 => some (keyBytes ⟨52, 7, 0⟩)
  | .romRowVoltageL3 => some (keyBytes ⟨72, 7, 0⟩)
  | .reset _ | .fDrain | .fDiscard | .fParseA | .fParseH | .aggInit | .aggWr _ _ | .aggDlv | .crcaClr |
  .crcaUpd _ | .crcxClr | .crcxUpd _ | .crcxFin | .romLkp _ | .decParse _ | .decEnd | .sclScale _ _ |
  .hexParse | .lOther | .lStrip | .lData | .tSplit | .keyParse _ | .hTmo | .hValidate | .vSize | .vLen |
  .vFcs | .vOk | .hHdr | .hDone | .commit => none

/-- The positions at which an operation's pattern applies: the `context` column of the opcode table. -/
def Instr.appearsIn (i : Instr) (ctx : Ctx) : Bool :=
  match i with
  | .nop _ => ctx == .command
  | .invoke => ctx == .command
  | .abort => ctx == .command
  | .decSign => ctx == .tokenByte .start
  | .decDigit _ => ctx == .tokenByte .start || ctx == .tokenByte .sign || ctx == .tokenByte .int
  | .decPoint => ctx == .tokenByte .int
  | .decFrac _ => ctx == .tokenByte .point || ctx == .tokenByte .frac
  | .decBad b => (ctx == .tokenByte .start && b != minus) || ctx == .tokenByte .sign ||
      (ctx == .tokenByte .int && b != dot) || ctx == .tokenByte .point || ctx == .tokenByte .frac
  | .aChar _ => ctx == .asciiByte false
  | .aEol => ctx == .asciiByte false
  | .aOvf _ => ctx == .asciiByte true
  | .lCksum => ctx == .line
  | .idMatch k => ctx == .dataId k
  | .hSkip _ => ctx == .hdlcByte .outsideFrame false || ctx == .hdlcByte .outsideFrame true
  | .hOpen => ctx == .hdlcByte .outsideFrame false || ctx == .hdlcByte .outsideFrame true
  | .hData _ => ctx == .hdlcByte .readingFrame false
  | .hClose => ctx == .hdlcByte .readingFrame false
  | .hOvf _ => ctx == .hdlcByte .readingFrame true
  | .hDate _ => ctx == .dateLength
  | .array _ => ctx == .arrayTag
  | .struct _ => ctx == .structTag
  | .structN _ => ctx == .element
  | .scale _ => ctx == .element
  | .unit _ => ctx == .element
  | .octs _ _ => ctx == .element
  | .u32 _ => ctx == .element
  | .i16 _ => ctx == .element
  | .u16 _ => ctx == .element
  | .unk _ => ctx == .element
  | .romRowCumActImp | .romRowCumActExp | .romRowCumReactImp | .romRowCumReactExp | .romRowInstActImp |
  .romRowInstActExp | .romRowInstReactImp | .romRowInstReactExp | .romRowInstActImpL1 |
  .romRowInstActImpL2 | .romRowInstActImpL3 | .romRowInstActExpL1 | .romRowInstActExpL2 |
  .romRowInstActExpL3 | .romRowInstReactImpL1 | .romRowInstReactImpL2 | .romRowInstReactImpL3 |
  .romRowInstReactExpL1 | .romRowInstReactExpL2 | .romRowInstReactExpL3 | .romRowCurrentL1 |
  .romRowCurrentL2 | .romRowCurrentL3 | .romRowVoltageL1 | .romRowVoltageL2 | .romRowVoltageL3 => ctx == .romKey
  | .reset _ | .fDrain | .fDiscard | .fParseA | .fParseH | .aggInit | .aggWr _ _ | .aggDlv | .crcaClr |
  .crcaUpd _ | .crcxClr | .crcxUpd _ | .crcxFin | .romLkp _ | .decParse _ | .decEnd | .sclScale _ _ |
  .hexParse | .lOther | .lStrip | .lData | .tSplit | .keyParse _ | .hTmo | .hValidate | .vSize | .vLen |
  .vFcs | .vOk | .hHdr | .hDone | .commit => false

/-! The words of spec/opcode_table.json. A row is ONE word of its width, its first byte the most significant one, as
the table numbers its bits (notes/assumptions/17.md). -/

/-- The `n` low bytes of `w`, most significant first. -/
def beBytes : Nat → Nat → List Byte
  | 0, _ => []
  | n + 1, w => BitVec.ofNat 8 (w >>> (8 * n)) :: beBytes n w

/-- The position at which a table word of one byte stands, where the bytes of two positions do not meet. -/
def byteCtx (b : Byte) : Ctx :=
  if b.toNat < 4 then .command
  else if b = bang then .line
  else if b = dot then .tokenByte .int
  else if b = minus ∨ isDigit b then .tokenByte .start
  else if b = flagByte then .hdlcByte .outsideFrame false
  else .asciiByte false

/-- The position at which a table word stands, by its width and first bytes. -/
def tableCtx (bytes : List Byte) : Ctx :=
  match bytes with
  | [b] => byteCtx b
  | [t, _] => if t = tagArray then .arrayTag else if t = tagStruct then .structTag else .element
  | [c, d, e] =>
    if [c, d, e] = Params.default.dataId then .dataId 0
    else if (romFixedRow ⟨c, d, e⟩).isSome then .romKey
    else .element
  | _ => .element

/-- The bytes of a table word. Two ROM rows carry an extra `slot` field above bit 23 that the spec's own table does
not have; the key is the low 24 bits (notes/assumptions/19.md). -/
def tableBytes (nbits w : Nat) : List Byte :=
  if nbits = 32 then beBytes 3 w else beBytes (nbits / 8) w

/-- The operation the decoder reads from a table word; operand bytes above the word are zeros. -/
def decodeTableWord (nbits w : Nat) : Option Instr :=
  match decode (tableCtx (tableBytes nbits w)) (tableBytes nbits w ++ List.replicate 255 0) with
  | .ok (i, _) => some i
  | .error _ => none

end Sys2Proof
end

