-- ==== Sys2Proof/Machine/Memory.lean ====
section
/-! DEFINITION. The frame buffer's storage: the one byte-addressed space of CORE that operations write (R26, R70),
as a list of cells in one canonical form. -/

namespace Sys2Proof.Machine

/-- The storage of `buf`: cells at strictly rising indexes, none holding what an unlisted index reads as. -/
abbrev Memory := List Host.Cell

/-- What an index that no cell lists reads as. The spec leaves those bytes unspecified (R26, U21), DESIGN CHOICE
(notes/assumptions/5.md). -/
def unlistedByte : Byte := 0

/-- The byte at index `a`. -/
def Memory.read : Memory → Nat → Byte
  | [], _ => unlistedByte
  | (k, b) :: m, a => if k = a then b else Memory.read m a

/-- Store `v` at index `a`, keeping the canonical form: storing the unlisted byte drops the cell. -/
def Memory.write : Memory → Nat → Byte → Memory
  | [], a, v => if v = unlistedByte then [] else [(a, v)]
  | (k, b) :: m, a, v =>
    if a < k then (if v = unlistedByte then (k, b) :: m else (a, v) :: (k, b) :: m)
    else if a = k then (if v = unlistedByte then m else (a, v) :: m)
    else (k, b) :: Memory.write m a v

/-- Store a run of bytes from index `a` upward. -/
def Memory.writeRun : Memory → Nat → List Byte → Memory
  | m, _, [] => m
  | m, a, b :: bs => Memory.writeRun (m.write a b) (a + 1) bs

/-- Cells rise strictly from `lo` on and none holds the unlisted byte. -/
def Memory.wfFrom : Nat → Memory → Bool
  | _, [] => true
  | lo, (k, b) :: m => decide (lo ≤ k) && decide (b ≠ unlistedByte) && Memory.wfFrom (k + 1) m

/-- The canonical form. -/
def Memory.wf (m : Memory) : Bool := Memory.wfFrom 0 m

/-- Every cell lies inside the buffer's capacity (R26, R70). -/
def Memory.below (m : Memory) (cap : Nat) : Bool := m.all fun c => decide (c.1 < cap)

end Sys2Proof.Machine
end

