-- ==== Sys2Proof/Machine/State.lean ====
section
/-! DEFINITION. The state of the machine as plain data: every register of file 10, the byte source's queue and the
host's pending events (the environment's part of the step, R57, R62, R299), and the output trace (R11). -/

namespace Sys2Proof.Machine

/-- A token register: a pair of buffer indexes, the end exclusive, and a present bit (R31). -/
structure Tok where
  start : Nat
  stop : Nat
  present : Bool
  deriving DecidableEq, Repr

/-- An absent token with indexes 0, as `State.reset` holds it (notes/assumptions/2.md). -/
def Tok.absent : Tok := ⟨0, 0, false⟩

/-- An output event (R14, R102). -/
inductive Event where
  /-- `deliver(i, v)`, the slot index and its binary64 bit pattern -/
  | deliver (i : Fin 28) (v : F64)
  /-- `report(e)` -/
  | report (e : ErrorCode)
  deriving DecidableEq, Repr

/-- The draw `j` of an `INVOKE`, a natural number `>= 1`: `j = 0` is excluded (R8, R299, D39). -/
abbrev Budget := { n : Nat // 1 ≤ n }

/-- The smallest draw. -/
def Budget.one : Budget := ⟨1, Nat.le_refl 1⟩

/-- One sample of the host port (R101) with the environment's draws for the event it selects (R299) and the bytes
the byte source appends around it (R62). -/
structure HostEvent where
  /-- bytes the byte source appended since the previous event -/
  arrived : List Byte
  /-- the `rst` pin -/
  rst : Bool
  /-- the `protocol` pin, sampled only while `rst` is asserted -/
  protocol : Protocol
  /-- `cmd[1:0]` -/
  cmd : BitVec 2
  /-- the draw `j`, the most bytes an intake loop may take -/
  budget : Budget
  /-- the draw `timeout` -/
  timeout : Bool
  /-- what the byte source appends before each availability query of the intake loop, in turn -/
  arrivals : List (List Byte)
  deriving DecidableEq, Repr

/-- The telegram aggregate (R290, R21 to R25). -/
structure Agg where
  /-- `slot[0..27]` (R21) -/
  slots : Vector F64 28
  /-- `CRC` (R22) -/
  crc : Half
  /-- `telegramComplete` (R23) -/
  complete : Bool
  /-- `crcValid` (R24) -/
  valid : Bool
  /-- `PUBCUR`, 0 to 28 (R25) -/
  pubcur : Nat
  deriving DecidableEq, Repr

/-- The ASCII tokenizer's working registers (R30 to R33). -/
structure Alt where
  /-- `n`, the stripped line's length (R30) -/
  n : Nat
  /-- `tok[0..3]` (R31) -/
  tok : Vector Tok 4
  /-- `KEY`, one register for both parsers (R32, R58) -/
  key : Key
  /-- `key_valid` (R32) -/
  keyValid : Bool
  /-- `HEXACC` (R33) -/
  hexAcc : Half
  /-- the result bit of `ID.MATCH` (R202), a latch of the model -/
  idMatch : Bool
  deriving DecidableEq, Repr

/-- The decimal parser's working registers (R34). -/
structure Dec where
  dstate : DState
  neg : Bool
  /-- `I`, the integer part -/
  intPart : Nat
  /-- `F`, the fractional digits read as an integer -/
  frac : Nat
  /-- `nf`, the number of fractional digits -/
  nf : Nat
  deriving DecidableEq, Repr

/-- The TLV walker's registers (R45 to R52). -/
structure Tlv where
  /-- `cur` (R45) -/
  cur : Nat
  /-- `rem_structs` (R46) -/
  remStructs : Byte
  /-- `rem` (R47) -/
  rem : Nat
  /-- `code_found` (R48) -/
  codeFound : Bool
  /-- `scale`, `i8` (R49) -/
  scale : Byte
  /-- `scale_explicit` (R49) -/
  scaleExplicit : Bool
  /-- `unit` (R50) -/
  unit : Byte
  /-- `uval` (R51) -/
  uval : Word32
  /-- `uval_present` (R51) -/
  uvalPresent : Bool
  /-- `sval`, `i32` (R52) -/
  sval : Word32
  deriving DecidableEq, Repr

/-- Results that one operation hands to the next (R161, R171, R180), as latches of the model. -/
structure Latch where
  /-- `hit` of `ROM.LKP` -/
  romHit : Bool
  /-- `s` of `ROM.LKP`, meaningful only after a hit -/
  romSlot : Fin 28
  /-- `v` of `DEC.PARSE` and `SCL.SCALE` -/
  value : F64
  deriving DecidableEq, Repr

/-- The environment as the step reads it: the byte source (R62) and the host (R9, R299). -/
structure Env where
  /-- `Q`, the byte source's pending bytes, oldest first (R62) -/
  queue : List Byte
  /-- host events not yet processed, oldest first -/
  port : List HostEvent
  /-- the draw `j` of the event in progress (R299) -/
  budget : Budget
  /-- the draw `timeout` of the event in progress (R299) -/
  timeout : Bool
  /-- what the byte source has yet to append during the event in progress (R62) -/
  arrivals : List (List Byte)
  deriving DecidableEq, Repr

/-- The machine. -/
structure State where
  /-- the parameters of R8, written by no operation (R57) -/
  params : Params
  /-- a first `RESET` has happened (R361, U20), a bit of the model -/
  live : Bool
  /-- `PROTOCOL` (R20) -/
  protocol : Protocol
  /-- the telegram aggregate -/
  agg : Agg
  /-- `buf` (R26) -/
  buf : Memory
  /-- `len` (R27) -/
  len : Nat
  /-- `HSTATE` (R28) -/
  hstate : HState
  /-- the ASCII tokenizer's registers -/
  alt : Alt
  /-- the decimal parser's registers -/
  dec : Dec
  /-- `FCS` (R40) -/
  fcs : Half
  /-- the TLV walker's registers -/
  tlv : Tlv
  /-- results handed between operations -/
  latch : Latch
  /-- the environment -/
  env : Env
  /-- the output trace, oldest event first (R11, R14) -/
  trace : List Event
  deriving DecidableEq, Repr

/-- Why an operation stops with no effect. Each stands where the spec gives the operation no meaning, and no step
from a state of the machine's invariant reaches one. -/
inductive Fault where
  /-- A buffer index at or above `len`: `BufRead` is not defined there and no rule evaluates it (R78). Raised by
  V.LEN, V.FCS, T.SPLIT and the token operations run on a buffer too short for them. Safe: the model stops. -/
  | bufReadPastLen
  /-- No completed line is in the buffer: `len - 1` does not exist (R199). Raised by L.STRIP when `len = 0`. Safe. -/
  | noCompletedLine
  /-- `PUBCUR` names no slot: AGG.DLV has the precondition `PUBCUR >= 1` (R293). Safe. -/
  | noSlotToDeliver
  /-- SCL.SCALE on an exponent outside -4..5: the table has no entry and no defined result there (R181). Safe. -/
  | noPowerOfTen
  /-- A byte was offered to the framer in `FOUND_FRAME`, where no byte is taken from `Q` (R106). The intake loop never
  runs there, so nothing raises this. Safe. -/
  | byteInFoundFrame
  /-- The bound on the walker's element loop ran out. It is large enough for every buffer (R263), so nothing raises
  this. Safe. -/
  | walkerBound
  deriving DecidableEq, Repr

/-- Why a step is refused. -/
inductive Refusal where
  /-- The operation has no meaning in the model yet. No arm of `exec` answers with it. Safe. -/
  | notModelled (mnemonic : String)
  /-- A host event other than RESET before the first RESET has no defined effect (R361, U20). Raised by `step`. Safe. -/
  | beforeFirstReset
  deriving DecidableEq, Repr

/-- The aggregate as `AGG.INIT` leaves it (R291). -/
def Agg.init : Agg where
  slots := Vector.replicate 28 F64.zero
  crc := crcaInit
  complete := false
  valid := false
  pubcur := 28

/-- The machine right after `RESET(ascii)` at power-on (R361). The transient registers, unspecified there, hold zeros
(notes/assumptions/2.md); `PROTOCOL` is an input of the reset and the parameters are R8's (notes/assumptions/3.md,
4.md); nothing is pending and nothing has been emitted. -/
def State.reset : State where
  params := Params.default
  live := true
  protocol := .ascii
  agg := Agg.init
  buf := []
  len := 0
  hstate := .outsideFrame
  alt := { n := 0, tok := Vector.replicate 4 Tok.absent, key := ⟨0, 0, 0⟩, keyValid := false, hexAcc := 0, idMatch := false }
  dec := { dstate := .start, neg := false, intPart := 0, frac := 0, nf := 0 }
  fcs := 0
  tlv := { cur := 0, remStructs := 0, rem := 0, codeFound := false, scale := 0, scaleExplicit := false, unit := 0,
           uval := 0, uvalPresent := false, sval := 0 }
  latch := { romHit := false, romSlot := 0, value := F64.zero }
  env := { queue := [], port := [], budget := Budget.one, timeout := false, arrivals := [] }
  trace := []

end Sys2Proof.Machine
end

