-- ==== Sys2Proof/Machine/Operands.lean ====
section
/-! DEFINITION. Operand assembly and the value computations of the spec as functions of plain data: CRC steps, hex,
token and key text, binary64 rounding, the power-of-ten table. -/

namespace Sys2Proof.Machine

/-! CRC (R142, R147). -/

/-- One shift of a reflected CRC register: a zero enters bit 15, the polynomial is added when a 1 leaves (R142). -/
def crcShift (poly c : Half) : Half :=
  if c.getLsbD 0 then (c >>> 1) ^^^ poly else c >>> 1

/-- `n` shifts. -/
def crcShifts (poly : Half) : Nat → Half → Half
  | 0, c => c
  | n + 1, c => crcShifts poly n (crcShift poly c)

/-- One byte fed, least significant bit first (R74, R142, R147). -/
def crcByte (poly c : Half) (b : Byte) : Half := crcShifts poly 8 (c ^^^ b.zeroExtend 16)

/-- A byte sequence fed in order. -/
def crcBytes (poly : Half) (c : Half) (bs : List Byte) : Half := bs.foldl (crcByte poly) c

/-- `crca(B)` (R143). -/
def crca (bs : List Byte) : Half := crcBytes crcaPoly crcaInit bs

/-- `crcx(B)` (R149). -/
def crcx (bs : List Byte) : Half := crcBytes crcxPoly crcxInit bs ^^^ crcxXorOut

/-! Hex (R113, R197). -/

/-- `HEXACC` after the leading hex digits of `bs`, modulo 2^16; the first other byte stops it (R197). -/
def hexFold : Half → List Byte → Half
  | acc, [] => acc
  | acc, b :: bs =>
    match hexValue b with
    | some d => hexFold ((acc <<< 4) ||| d.zeroExtend 16) bs
    | none => acc

/-! Tokens (R201). -/

/-- The maximal runs of non-delimiter bytes of a line, from byte `i` on; `open?` is where a run in progress began. -/
def tokenRuns : List Byte → Nat → Option Nat → List Tok
  | [], _, none => []
  | [], i, some st => [⟨st, i, true⟩]
  | b :: bs, i, none => if isDelim b then tokenRuns bs (i + 1) none else tokenRuns bs (i + 1) (some i)
  | b :: bs, i, some st =>
    if isDelim b then ⟨st, i, true⟩ :: tokenRuns bs (i + 1) none else tokenRuns bs (i + 1) (some st)

/-- `tok[0..3]` after a stripped line is split, `old` what they held: the first four tokens, the rest absent (R201). An
absent register keeps its `start` and `end`, of which the rule clears only the present bit and gives no value: DEDUCED
(notes/assumptions/27.md). -/
def splitTokens (old : Vector Tok 4) (line : List Byte) : Vector Tok 4 :=
  Vector.ofFn fun k : Fin 4 => (tokenRuns line 0 none).getD k.val { old.get k with present := false }

/-! The register code (R112, R203). -/

/-- A token split at every `0x2E`; the number of fields is one more than the number of dots (R203). -/
def splitDots : List Byte → List (List Byte)
  | [] => [[]]
  | b :: bs =>
    if b = dot then [] :: splitDots bs
    else
      match splitDots bs with
      | g :: gs => (b :: g) :: gs
      | [] => [[b]]

/-- The decimal number a run of digit bytes spells, most significant first (R112). -/
def decimalValue (bs : List Byte) : Nat := bs.foldl (fun a b => a * 10 + digitValue b) 0

/-- A key segment: 1 to 3 digits, value at most 255 (R203). -/
def segmentOf (g : List Byte) : Option Byte :=
  if 1 ≤ g.length ∧ g.length ≤ 3 ∧ g.all isDigit ∧ decimalValue g ≤ keySegMax then
    some (BitVec.ofNat 8 (decimalValue g))
  else none

/-- The key a token spells, none when it is ill-formed (R203). -/
def keyOfToken (t : List Byte) : Option Key :=
  match splitDots t with
  | [g0, g1, g2] =>
    match segmentOf g0, segmentOf g1, segmentOf g2 with
    | some c, some d, some e => some ⟨c, d, e⟩
    | _, _, _ => none
  | _ => none

/-! binary64 (R15). -/

/-- `a / b` rounded to the nearest natural number, ties to even. -/
def divHalfEven (a b : Nat) : Nat :=
  if 2 * (a % b) < b then a / b
  else if b < 2 * (a % b) then a / b + 1
  else a / b + (a / b) % 2

/-- The binary64 bit pattern (sign bit clear) of `num / den` rounded to nearest, ties to even (R15). The normal range
is all that the rules reach (R170); below it the subnormals and above it infinity follow IEEE 754
(notes/assumptions/22.md). -/
def roundMagnitude (num den : Nat) : Nat :=
  if num = 0 ∨ den = 0 then 0
  else
    let k := 55 + Nat.log2 den
    let top := Nat.log2 (num * 2 ^ k / den)
    let drop := if k < top + 1023 then top - 52 else k - 1074
    let base := if k < top + 1023 then top + 1022 - k else 0
    let bits := base * 2 ^ 52 + divHalfEven (num * 2 ^ k) (den * 2 ^ drop)
    if bits < 0x7FF0000000000000 then bits else 0x7FF0000000000000

/-- `round64` of `num / den`, negated when `neg`; zero is +0.0 whatever the sign (R15, R170). -/
def round64 (neg : Bool) (num den : Nat) : F64 :=
  let m := roundMagnitude num den
  if m = 0 then F64.zero else BitVec.ofNat 64 (if neg then 2 ^ 63 + m else m)

/-- The power-of-ten table: exactly ten entries, each a numerator and a denominator (R181). -/
def powerOfTen (e : Int) : Option (Nat × Nat) :=
  if e = -4 then some (1, 10000)
  else if e = -3 then some (1, 1000)
  else if e = -2 then some (1, 100)
  else if e = -1 then some (1, 10)
  else if e = 0 then some (1, 1)
  else if e = 1 then some (10, 1)
  else if e = 2 then some (100, 1)
  else if e = 3 then some (1000, 1)
  else if e = 4 then some (10000, 1)
  else if e = 5 then some (100000, 1)
  else none

/-- `round64(raw * 10^scale)` (R180); none when the table has no entry (R181). -/
def scaledValue (raw scale : Int) : Option F64 :=
  match powerOfTen scale with
  | some (num, den) => some (round64 (decide (raw < 0)) (raw.natAbs * num) den)
  | none => none

/-- `round64` of the decimal `(I * 10^nf + F) / 10^nf` with its sign (R176, R178). -/
def decimalResult (neg : Bool) (intPart frac nf : Nat) : F64 :=
  round64 neg (intPart * 10 ^ nf + frac) (10 ^ nf)

/-! Frame fields. -/

/-- `((b1 & 0x0F) << 8) | b2`, the declared length (R72, R115). -/
def declaredLength (b1 b2 : Byte) : Nat := (b1 &&& 0x0F).toNat * 256 + b2.toNat

/-- The 16-bit value of the two stored FCS bytes, `lo` at the lower index, in the parameter's order (R73). -/
def storedFcs (lowFirst : Bool) (b0 b1 : Byte) : Half := if lowFirst then be16 b1 b0 else be16 b0 b1

/-- `sext_32` of a 16-bit value (R110). -/
def sext32 (v : Half) : Word32 := v.signExtend 32

/-- `zext_32` of a 16-bit value (R110). -/
def zext32 (v : Half) : Word32 := v.zeroExtend 32

end Sys2Proof.Machine
end

