-- ==== Sys2Proof/Machine/Flags.lean ====
section
/-! DEFINITION. The flag and condition computations of the spec: what each flag is written with and what each
selection tests (R60). CORE has no arithmetic condition codes. -/

namespace Sys2Proof.Machine

/-- `crcValid` as `L.CKSUM` writes it (R24, R196). -/
def crcMatches (crc expected : Half) : Bool := crc == expected

/-- The feed rule: `b` is the first byte of a line, or the line in progress is no checksum line (R194). -/
def feeds (s : State) : Bool := s.len == 0 || s.buf.read 0 != bang

/-- `len = BUF_CAP`: the next byte does not fit (R76, R103, R106). -/
def bufferFull (s : State) : Bool := decide (s.params.bufCap ≤ s.len)

/-- The result of `ID.MATCH`: the token begins with the data-object prefix (R202). -/
def dataIdMatches (dataId tok : List Byte) : Bool := dataId.isPrefixOf tok

/-- The implicit -3 applies at a `UNIT` element: no explicit scale, and neither ampere nor volt (R256). -/
def implicitApplies (p : Params) (explicit : Bool) (u : Byte) : Bool :=
  !explicit && u != p.unitAmpere && u != p.unitVolt

/-- The exponent is in -4..5 when it is used (R262). -/
def scaleInRange (e : Byte) : Bool := decide (scaleMin ≤ e.toInt) && decide (e.toInt ≤ scaleMax)

/-- The raw value `COMMIT` scales: unsigned preferred if present (R262). -/
def rawValue (t : Tlv) : Int := if t.uvalPresent then (t.uval.toNat : Int) else t.sval.toInt

end Sys2Proof.Machine
end

