-- ==== Sys2Proof/Machine/Ops.lean ====
section
/-! DEFINITION. The named operations every meaning is written over: how a micro-operation ends, events, the buffer
primitives, the aggregate reset, and the abort sequence, which is CORE's exception entry (R329). There is no return
from an exception: after an abort CORE continues with the next bytes (R332). -/

namespace Sys2Proof.Machine

/-- How a micro-operation ends. -/
inductive Flow where
  /-- it completes and the sequence it belongs to goes on in `s` -/
  | go (s : State)
  /-- it raised a fatal error: the abort sequence ran and the current `INVOKE` has ended in `s` (R14, R329) -/
  | ended (s : State)
  /-- the spec gives it no meaning here -/
  | stop (f : Fault)
  deriving DecidableEq, Repr

/-- Go on with the next micro-operation; after a raise none runs (R14). -/
def Flow.andThen : Flow → (State → Flow) → Flow
  | .go s, k => k s
  | .ended s, _ => .ended s
  | .stop f, _ => .stop f

/-- The outcome of one operation on its own: a raise is a next state, the one the abort sequence leaves. -/
def Flow.outcome : Flow → Host.Outcome State Fault Refusal
  | .go s => .next s
  | .ended s => .next s
  | .stop f => .fault f

/-! Events (R14). -/

/-- `emit`: append an event to the output trace. -/
def State.emit (s : State) (ev : Event) : State := { s with trace := s.trace ++ [ev] }

/-- `report(e)`, emitted once at detection (R328). -/
def State.report (s : State) (e : ErrorCode) : State := s.emit (.report e)

/-! Registers shared by several units. -/

/-- `len <- n`. -/
def State.setLen (s : State) (n : Nat) : State := { s with len := n }

/-- `HSTATE <- h`. -/
def State.setHState (s : State) (h : HState) : State := { s with hstate := h }

/-- `CRC <- c`. -/
def State.setCrc (s : State) (c : Half) : State := { s with agg := { s.agg with crc := c } }

/-- `telegramComplete <- b`. -/
def State.setComplete (s : State) (b : Bool) : State := { s with agg := { s.agg with complete := b } }

/-- `crcValid <- b`. -/
def State.setValid (s : State) (b : Bool) : State := { s with agg := { s.agg with valid := b } }

/-- `PUBCUR <- n`. -/
def State.setPubcur (s : State) (n : Nat) : State := { s with agg := { s.agg with pubcur := n } }

/-- `slot[i] <- v` (R13). -/
def State.setSlot (s : State) (i : Fin 28) (v : F64) : State :=
  { s with agg := { s.agg with slots := s.agg.slots.set i.val v i.isLt } }

/-- The aggregate reset `AGG.INIT`; it does not touch `buf`, `len`, `HSTATE` or `PROTOCOL` (R291). -/
def State.aggInit (s : State) : State := { s with agg := Agg.init }

/-- Write the tokenizer's registers. -/
def State.setAlt (s : State) (a : Alt) : State := { s with alt := a }

/-- Write the decimal parser's registers. -/
def State.setDec (s : State) (d : Dec) : State := { s with dec := d }

/-- Write the walker's registers. -/
def State.setTlv (s : State) (t : Tlv) : State := { s with tlv := t }

/-- Write the result latches. -/
def State.setLatch (s : State) (l : Latch) : State := { s with latch := l }

/-- `FCS <- c`. -/
def State.setFcs (s : State) (c : Half) : State := { s with fcs := c }

/-- Write the environment's part. -/
def State.setEnv (s : State) (e : Env) : State := { s with env := e }

/-- `Q` becomes `q`. -/
def State.setQueue (s : State) (q : List Byte) : State := { s with env := { s.env with queue := q } }

/-! The frame buffer (R76, R78). -/

/-- `buf[i] <- b`. -/
def State.store (s : State) (i : Nat) (b : Byte) : State := { s with buf := s.buf.write i b }

/-- `buf[i]`. Every caller has established `i < len`. -/
def State.byteAt (s : State) (i : Nat) : Byte := s.buf.read i

/-- `buf[a .. b-1]`. -/
def State.bytes (s : State) (a b : Nat) : List Byte := (List.range (b - a)).map fun i => s.buf.read (a + i)

/-- `buf[a .. b-1]` handed to `k`, where it lies below `len`; elsewhere it is not defined (R78). -/
def State.withBytes (s : State) (a b : Nat) (k : List Byte → Flow) : Flow :=
  if b ≤ s.len then k (s.bytes a b) else .stop .bufReadPastLen

/-- The text of a token register handed to `k`: `buf[start .. end-1]` (R31), empty for an absent token. -/
def State.withToken (s : State) (t : Tok) (k : List Byte → Flow) : Flow :=
  if t.present then s.withBytes t.start t.stop k else k []

/-! The abort sequence (R329). -/

/-- What `RESET`, `ABORT` and the abort sequence share: an empty buffer, `OUTSIDE_FRAME`, a fresh aggregate (R362).
The transient registers (R30 to R52) keep what they held, where U22 allows any value: DESIGN CHOICE
(notes/assumptions/28.md). -/
def State.toScanning (s : State) : State := ((s.setLen 0).setHState .outsideFrame).aggInit

/-- Taking an exception: report it, empty the buffer, return to `OUTSIDE_FRAME`, reset the aggregate (R329).
The transient registers keep what they held: DESIGN CHOICE (notes/assumptions/28.md). -/
def State.abortSequence (s : State) (e : ErrorCode) : State := (s.report e).toScanning

/-- `raise e`: the abort sequence, and the current `INVOKE` ends (R14, R329). -/
def raise (e : ErrorCode) (s : State) : Flow := .ended (s.abortSequence e)

/-- `soft e`: report and continue (R14, R330). -/
def soft (e : ErrorCode) (s : State) : State := s.report e

/-- `need(n)`, the overrun check, on natural numbers without wrap-around (R251). -/
def need (n : Nat) (s : State) (k : State → Flow) : Flow :=
  if s.len < s.tlv.cur + n then raise .truncatedStruct s else k s

/-- `BufAppend(b)`: refused at capacity, where the caller raises `FrameTooLarge` (R76). -/
def bufAppend (b : Byte) (s : State) : Flow :=
  if bufferFull s then raise .frameTooLarge s else .go ((s.store s.len b).setLen (s.len + 1))

end Sys2Proof.Machine
end

