-- ==== Sys2Proof/Machine/Aggregate.lean ====
section
/-! DEFINITION. The telegram aggregate: AGG.INIT, AGG.WR, AGG.DLV (R291 to R293), and the CRC engines: CRCA.CLR,
CRCA.UPD, CRCX.CLR, CRCX.UPD, CRCX.FIN (R141 to R148). -/

namespace Sys2Proof.Machine

/-- `AGG.WR s, v`: `slot[s] <- v`, last write wins (R292). -/
def doAggWr (i : Fin 28) (v : F64) (s : State) : State := s.setSlot i v

/-- `AGG.DLV`: deliver slot `28 - PUBCUR` and count down; its precondition is `PUBCUR >= 1` (R293). -/
def doAggDlv (s : State) : Flow :=
  if h : 1 ≤ s.agg.pubcur ∧ s.agg.pubcur ≤ 28 then
    let i : Fin 28 := ⟨28 - s.agg.pubcur, by omega⟩
    .go ((s.emit (.deliver i (s.agg.slots.get i))).setPubcur (s.agg.pubcur - 1))
  else .stop .noSlotToDeliver

/-- `CRCA.CLR`: `CRC <- 0x0000` (R141). -/
def doCrcaClr (s : State) : State := s.setCrc crcaInit

/-- `CRCA.UPD b` (R142). -/
def doCrcaUpd (b : Byte) (s : State) : State := s.setCrc (crcByte crcaPoly s.agg.crc b)

/-- `CRCX.CLR`: `FCS <- 0xFFFF` (R146). -/
def doCrcxClr (s : State) : State := s.setFcs crcxInit

/-- `CRCX.UPD b` (R147). -/
def doCrcxUpd (b : Byte) (s : State) : State := s.setFcs (crcByte crcxPoly s.fcs b)

/-- `CRCX.FIN`: `FCS <- FCS ^ 0xFFFF` (R148). -/
def doCrcxFin (s : State) : State := s.setFcs (s.fcs ^^^ crcxXorOut)

/-- Meaning of `AGG.INIT` (R291). -/
def execAggInit (s : State) : Host.Outcome State Fault Refusal := .next s.aggInit

/-- Meaning of `AGG.WR` (R292). -/
def execAggWr (slot : Fin 28) (v : F64) (s : State) : Host.Outcome State Fault Refusal := .next (doAggWr slot v s)

/-- Meaning of `AGG.DLV` (R293). -/
def execAggDlv (s : State) : Host.Outcome State Fault Refusal := (doAggDlv s).outcome

/-- Meaning of `CRCA.CLR` (R141). -/
def execCrcaClr (s : State) : Host.Outcome State Fault Refusal := .next (doCrcaClr s)

/-- Meaning of `CRCA.UPD` (R142). -/
def execCrcaUpd (b : Byte) (s : State) : Host.Outcome State Fault Refusal := .next (doCrcaUpd b s)

/-- Meaning of `CRCX.CLR` (R146). -/
def execCrcxClr (s : State) : Host.Outcome State Fault Refusal := .next (doCrcxClr s)

/-- Meaning of `CRCX.UPD` (R147). -/
def execCrcxUpd (b : Byte) (s : State) : Host.Outcome State Fault Refusal := .next (doCrcxUpd b s)

/-- Meaning of `CRCX.FIN` (R148). -/
def execCrcxFin (s : State) : Host.Outcome State Fault Refusal := .next (doCrcxFin s)

end Sys2Proof.Machine
end

