-- ==== Sys2Proof/Machine/Decimal.lean ====
section
/-! DEFINITION. The decimal fixed-point parser DEC (R171 to R178) and the binary scaler SCL (R180). -/

namespace Sys2Proof.Machine

/-- The registers as `DEC.PARSE` sets them up (R171). -/
def Dec.init : Dec := { dstate := .start, neg := false, intPart := 0, frac := 0, nf := 0 }

/-- `DEC.SIGN` (R172). -/
def doDecSign (s : State) : State := s.setDec { s.dec with neg := true, dstate := .sign }

/-- `DEC.DIGIT`, digit value `x`: the magnitude cap is checked as digits arrive (R173). -/
def doDecDigit (x : Nat) (s : State) : Flow :=
  let t := s.setDec { s.dec with intPart := s.dec.intPart * 10 + x }
  if t.params.decIntMax < t.dec.intPart then raise .malformedValue t
  else .go (t.setDec { t.dec with dstate := .int })

/-- `DEC.POINT` (R174). -/
def doDecPoint (s : State) : State := s.setDec { s.dec with dstate := .point }

/-- `DEC.FRAC`, digit value `x`: a fourth fractional digit is an error (R175). -/
def doDecFrac (x : Nat) (s : State) : Flow :=
  if decFracMax ≤ s.dec.nf then raise .malformedValue s
  else .go (s.setDec { s.dec with frac := s.dec.frac * 10 + x, nf := s.dec.nf + 1, dstate := .frac })

/-- `DEC.BAD` (R177). -/
def doDecBad (s : State) : Flow := raise .malformedValue s

/-- `DEC.END`: the value, or an error when no fractional digit was read (R176). -/
def doDecEnd (s : State) : Flow :=
  if s.dec.dstate = .frac then
    .go (s.setLatch { s.latch with value := decimalResult s.dec.neg s.dec.intPart s.dec.frac s.dec.nf })
  else raise .malformedValue s

/-- One byte of the token: the operation the table of R177 selects for it. -/
def decStep (b : Byte) (s : State) : Flow :=
  match decSel s.dec.dstate b with
  | .sign => .go (doDecSign s)
  | .digit => doDecDigit (digitValue b) s
  | .point => .go (doDecPoint s)
  | .frac => doDecFrac (digitValue b) s
  | .bad => doDecBad s

/-- The bytes of the token in order, up to the first error (R171). -/
def decRun : List Byte → State → Flow
  | [], s => .go s
  | b :: bs, s => (decStep b s).andThen (decRun bs)

/-- `DEC.PARSE` on the token text `t` (R171). -/
def decParseText (t : List Byte) (s : State) : Flow := (decRun t (s.setDec Dec.init)).andThen doDecEnd

/-- `DEC.PARSE tok[k]` (R171). -/
def doDecParse (k : Fin 4) (s : State) : Flow :=
  s.withToken (s.alt.tok.get k) fun t => decParseText t s

/-- `SCL.SCALE raw, scale`: the caller has checked the range; the table has no other entry (R180, R181). -/
def doSclScale (raw scale : Int) (s : State) : Flow :=
  match scaledValue raw scale with
  | some v => .go (s.setLatch { s.latch with value := v })
  | none => .stop .noPowerOfTen

/-- Meaning of `DEC.PARSE` (R171). -/
def execDecParse (k : Fin 4) (s : State) : Host.Outcome State Fault Refusal := (doDecParse k s).outcome

/-- Meaning of `DEC.SIGN` (R172). -/
def execDecSign (s : State) : Host.Outcome State Fault Refusal := .next (doDecSign s)

/-- Meaning of `DEC.DIGIT` (R173). -/
def execDecDigit (d : BitVec 4) (s : State) : Host.Outcome State Fault Refusal := (doDecDigit d.toNat s).outcome

/-- Meaning of `DEC.POINT` (R174). -/
def execDecPoint (s : State) : Host.Outcome State Fault Refusal := .next (doDecPoint s)

/-- Meaning of `DEC.FRAC` (R175). -/
def execDecFrac (d : BitVec 4) (s : State) : Host.Outcome State Fault Refusal := (doDecFrac d.toNat s).outcome

/-- Meaning of `DEC.END` (R176). -/
def execDecEnd (s : State) : Host.Outcome State Fault Refusal := (doDecEnd s).outcome

/-- Meaning of `DEC.BAD` (R177). -/
def execDecBad (s : State) : Host.Outcome State Fault Refusal := (doDecBad s).outcome

/-- Meaning of `SCL.SCALE` (R180). -/
def execSclScale (raw scale : Int) (s : State) : Host.Outcome State Fault Refusal := (doSclScale raw scale s).outcome

end Sys2Proof.Machine
end

