-- ==== Sys2Proof/Machine/Rom.lean ====
section
/-! DEFINITION. The register-table ROM: ROM.LKP (R161) and its rows (R162, R165). -/

namespace Sys2Proof.Machine

/-- A row drives its slot index out and raises `hit` (R161). -/
def romDrive (slot : Fin 28) (s : State) : State := s.setLatch { s.latch with romHit := true, romSlot := slot }

/-- The slot of a key in `ROM_FIXED ++ ROM_EXTRA`; a key is in at most one row (R161, R165). -/
def romSlotOf (extra : List (Key × Fin 28)) (key : Key) : Option (Fin 28) :=
  match romFixedRow key with
  | some row => some row.slot
  | none =>
    match extra.find? fun r => r.1 == key with
    | some r => some r.2
    | none => none

/-- `ROM.LKP key`: `hit` and, after a hit, `s`; a miss is silent (R161, R164). -/
def doRomLkp (key : Key) (s : State) : State :=
  match romSlotOf s.params.romExtra key with
  | some slot => romDrive slot s
  | none => s.setLatch { s.latch with romHit := false }

/-- Meaning of `ROM.LKP` (R161). -/
def execRomLkp (key : Key) (s : State) : Host.Outcome State Fault Refusal := .next (doRomLkp key s)

/-- Meaning of `ROM.ROW.CUM_ACT_IMP`: the row of key 1.8.0 (R162). -/
def execRomRowCumActImp (s : State) : Host.Outcome State Fault Refusal := .next (romDrive 0 s)

/-- Meaning of `ROM.ROW.CUM_ACT_EXP`: the row of key 2.8.0 (R162). -/
def execRomRowCumActExp (s : State) : Host.Outcome State Fault Refusal := .next (romDrive 1 s)

/-- Meaning of `ROM.ROW.CUM_REACT_IMP`: the row of key 3.8.0 (R162). -/
def execRomRowCumReactImp (s : State) : Host.Outcome State Fault Refusal := .next (romDrive 2 s)

/-- Meaning of `ROM.ROW.CUM_REACT_EXP`: the row of key 4.8.0 (R162). -/
def execRomRowCumReactExp (s : State) : Host.Outcome State Fault Refusal := .next (romDrive 3 s)

/-- Meaning of `ROM.ROW.INST_ACT_IMP`: the row of key 1.7.0 (R162). -/
def execRomRowInstActImp (s : State) : Host.Outcome State Fault Refusal := .next (romDrive 4 s)

/-- Meaning of `ROM.ROW.INST_ACT_EXP`: the row of key 2.7.0 (R162). -/
def execRomRowInstActExp (s : State) : Host.Outcome State Fault Refusal := .next (romDrive 5 s)

/-- Meaning of `ROM.ROW.INST_REACT_IMP`: the row of key 3.7.0 (R162). -/
def execRomRowInstReactImp (s : State) : Host.Outcome State Fault Refusal := .next (romDrive 6 s)

/-- Meaning of `ROM.ROW.INST_REACT_EXP`: the row of key 4.7.0 (R162). -/
def execRomRowInstReactExp (s : State) : Host.Outcome State Fault Refusal := .next (romDrive 7 s)

/-- Meaning of `ROM.ROW.INST_ACT_IMP_L1`: the row of key 21.7.0 (R162). -/
def execRomRowInstActImpL1 (s : State) : Host.Outcome State Fault Refusal := .next (romDrive 8 s)

/-- Meaning of `ROM.ROW.INST_ACT_IMP_L2`: the row of key 41.7.0 (R162). -/
def execRomRowInstActImpL2 (s : State) : Host.Outcome State Fault Refusal := .next (romDrive 9 s)

/-- Meaning of `ROM.ROW.INST_ACT_IMP_L3`: the row of key 61.7.0 (R162). -/
def execRomRowInstActImpL3 (s : State) : Host.Outcome State Fault Refusal := .next (romDrive 10 s)

/-- Meaning of `ROM.ROW.INST_ACT_EXP_L1`: the row of key 22.7.0 (R162). -/
def execRomRowInstActExpL1 (s : State) : Host.Outcome State Fault Refusal := .next (romDrive 11 s)

/-- Meaning of `ROM.ROW.INST_ACT_EXP_L2`: the row of key 42.7.0 (R162). -/
def execRomRowInstActExpL2 (s : State) : Host.Outcome State Fault Refusal := .next (romDrive 12 s)

/-- Meaning of `ROM.ROW.INST_ACT_EXP_L3`: the row of key 62.7.0 (R162). -/
def execRomRowInstActExpL3 (s : State) : Host.Outcome State Fault Refusal := .next (romDrive 13 s)

/-- Meaning of `ROM.ROW.INST_REACT_IMP_L1`: the row of key 23.7.0 (R162). -/
def execRomRowInstReactImpL1 (s : State) : Host.Outcome State Fault Refusal := .next (romDrive 14 s)

/-- Meaning of `ROM.ROW.INST_REACT_IMP_L2`: the row of key 43.7.0 (R162). -/
def execRomRowInstReactImpL2 (s : State) : Host.Outcome State Fault Refusal := .next (romDrive 15 s)

/-- Meaning of `ROM.ROW.INST_REACT_IMP_L3`: the row of key 63.7.0 (R162). -/
def execRomRowInstReactImpL3 (s : State) : Host.Outcome State Fault Refusal := .next (romDrive 16 s)

/-- Meaning of `ROM.ROW.INST_REACT_EXP_L1`: the row of key 24.7.0 (R162). -/
def execRomRowInstReactExpL1 (s : State) : Host.Outcome State Fault Refusal := .next (romDrive 17 s)

/-- Meaning of `ROM.ROW.INST_REACT_EXP_L2`: the row of key 44.7.0 (R162). -/
def execRomRowInstReactExpL2 (s : State) : Host.Outcome State Fault Refusal := .next (romDrive 18 s)

/-- Meaning of `ROM.ROW.INST_REACT_EXP_L3`: the row of key 64.7.0 (R162). -/
def execRomRowInstReactExpL3 (s : State) : Host.Outcome State Fault Refusal := .next (romDrive 19 s)

/-- Meaning of `ROM.ROW.CURRENT_L1`: the row of key 31.7.0 (R162). -/
def execRomRowCurrentL1 (s : State) : Host.Outcome State Fault Refusal := .next (romDrive 20 s)

/-- Meaning of `ROM.ROW.CURRENT_L2`: the row of key 51.7.0 (R162). -/
def execRomRowCurrentL2 (s : State) : Host.Outcome State Fault Refusal := .next (romDrive 21 s)

/-- Meaning of `ROM.ROW.CURRENT_L3`: the row of key 71.7.0 (R162). -/
def execRomRowCurrentL3 (s : State) : Host.Outcome State Fault Refusal := .next (romDrive 22 s)

/-- Meaning of `ROM.ROW.VOLTAGE_L1`: the row of key 32.7.0 (R162). -/
def execRomRowVoltageL1 (s : State) : Host.Outcome State Fault Refusal := .next (romDrive 23 s)

/-- Meaning of `ROM.ROW.VOLTAGE_L2`: the row of key 52.7.0 (R162). -/
def execRomRowVoltageL2 (s : State) : Host.Outcome State Fault Refusal := .next (romDrive 24 s)

/-- Meaning of `ROM.ROW.VOLTAGE_L3`: the row of key 72.7.0 (R162). -/
def execRomRowVoltageL3 (s : State) : Host.Outcome State Fault Refusal := .next (romDrive 25 s)

end Sys2Proof.Machine
end

