-- ==== Sys2Proof/Machine/Ascii.lean ====
section
/-! DEFINITION. The ASCII line tokenizer ALT (file 43). -/

namespace Sys2Proof.Machine

/-- `HEX.PARSE`: the leading hex digits of `buf[1 .. len-1]` (R197). -/
def doHexParse (s : State) : State := s.setAlt { s.alt with hexAcc := hexFold 0 (s.bytes 1 s.len) }

/-- `L.CKSUM`: compare, complete the telegram, report a mismatch without aborting (R196, R321). -/
def doLCksum (s : State) : State :=
  let t := doHexParse s
  let u := (t.setValid (crcMatches t.agg.crc t.alt.hexAcc)).setComplete true
  if u.agg.valid then u else u.report .crcMismatch

/-- `L.STRIP`: `n`, without the `0x0A` and one `0x0D` before it (R199). -/
def doLStrip (s : State) : Flow :=
  if s.len = 0 then .stop .noCompletedLine
  else
    let n := s.len - 1
    let n := if 0 < n ∧ s.byteAt (n - 1) = cr then n - 1 else n
    .go (s.setAlt { s.alt with n := n })

/-- `L.OTHER`: nothing (R198). -/
def doLOther (s : State) : State := s

/-- `T.SPLIT`: `tok[0..3]` of `buf[0 .. n-1]` (R201). -/
def doTSplit (s : State) : Flow :=
  s.withBytes 0 s.alt.n fun line => .go (s.setAlt { s.alt with tok := splitTokens s.alt.tok line })

/-- `ID.MATCH tok[k]` (R202). -/
def doIdMatch (k : Fin 4) (s : State) : Flow :=
  s.withToken (s.alt.tok.get k) fun t => .go (s.setAlt { s.alt with idMatch := dataIdMatches s.params.dataId t })

/-- `KEY.PARSE tok[k]`: `KEY` is written only when the code is well-formed (R203). -/
def doKeyParse (k : Fin 4) (s : State) : Flow :=
  s.withToken (s.alt.tok.get k) fun t =>
    match keyOfToken t with
    | some key => .go (s.setAlt { s.alt with key := key, keyValid := true })
    | none => .go (s.setAlt { s.alt with keyValid := false })

/-- The end of `L.DATA`: the lookup comes before the value is parsed, and a miss is no error (R164, R200). -/
def lDataValue (s : State) : Flow :=
  if s.latch.romHit then (doDecParse 2 s).andThen fun t => .go (doAggWr t.latch.romSlot t.latch.value t)
  else .go s

/-- `L.DATA` after `KEY.PARSE` (R200). -/
def lDataKey (s : State) : Flow := if s.alt.keyValid then lDataValue (doRomLkp s.alt.key s) else .go s

/-- `L.DATA` after `ID.MATCH` (R200). -/
def lDataTokens (s : State) : Flow :=
  if s.alt.idMatch && (s.alt.tok.get 1).present && (s.alt.tok.get 2).present then
    (doKeyParse 1 s).andThen lDataKey
  else .go s

/-- `L.DATA`: a line whose dataId differs, with fewer than three tokens, with an ill-formed or an unknown code, writes
nothing; only the value of a known register can raise (R200, R331). -/
def doLData (s : State) : Flow :=
  (doTSplit s).andThen fun t =>
    if (t.alt.tok.get 0).present then (doIdMatch 0 t).andThen lDataTokens else .go t

/-- The dispatch of a completed line, format L (R104, R192, R195). -/
def lineDispatch (s : State) : Flow :=
  if s.byteAt 0 = bang then .go (doLCksum s)
  else
    (doLStrip s).andThen fun t =>
      if hasParen (t.bytes 0 t.alt.n) then doLData t else .go (doLOther t)

/-- The CRC feed of one ASCII byte, before it is appended (R191, R194). -/
def feedByte (b : Byte) (s : State) : State := if feeds s then doCrcaUpd b s else s

/-- `A.CHAR b` (R191). -/
def doAChar (b : Byte) (s : State) : Flow := bufAppend b (feedByte b s)

/-- `A.EOL`: the line is dispatched whole, then the buffer is emptied, unless the dispatch raised (R192). -/
def doAEol (s : State) : Flow :=
  ((bufAppend lf (feedByte lf s)).andThen lineDispatch).andThen fun t => .go (t.setLen 0)

/-- `A.OVF`: the byte is dropped (R193). -/
def doAOvf (s : State) : Flow := raise .frameTooLarge s

/-- One ASCII stream byte, format A (R103). -/
def asciiByte (b : Byte) (s : State) : Flow :=
  match asciiSel (bufferFull s) b with
  | .ovf => doAOvf s
  | .eol => doAEol s
  | .char => doAChar b s

/-- Meaning of `A.CHAR` (R191). -/
def execAChar (b : Byte) (s : State) : Host.Outcome State Fault Refusal := (doAChar b s).outcome

/-- Meaning of `A.EOL` (R192). -/
def execAEol (s : State) : Host.Outcome State Fault Refusal := (doAEol s).outcome

/-- Meaning of `A.OVF` (R193). -/
def execAOvf (s : State) : Host.Outcome State Fault Refusal := (doAOvf s).outcome

/-- Meaning of `L.CKSUM` (R196). -/
def execLCksum (s : State) : Host.Outcome State Fault Refusal := .next (doLCksum s)

/-- Meaning of `HEX.PARSE` (R197). -/
def execHexParse (s : State) : Host.Outcome State Fault Refusal := .next (doHexParse s)

/-- Meaning of `L.OTHER` (R198). -/
def execLOther (s : State) : Host.Outcome State Fault Refusal := .next (doLOther s)

/-- Meaning of `L.STRIP` (R199). -/
def execLStrip (s : State) : Host.Outcome State Fault Refusal := (doLStrip s).outcome

/-- Meaning of `L.DATA` (R200). -/
def execLData (s : State) : Host.Outcome State Fault Refusal := (doLData s).outcome

/-- Meaning of `T.SPLIT` (R201). -/
def execTSplit (s : State) : Host.Outcome State Fault Refusal := (doTSplit s).outcome

/-- Meaning of `ID.MATCH` (R202). -/
def execIdMatch (k : Fin 4) (s : State) : Host.Outcome State Fault Refusal := (doIdMatch k s).outcome

/-- Meaning of `KEY.PARSE` (R203). -/
def execKeyParse (k : Fin 4) (s : State) : Host.Outcome State Fault Refusal := (doKeyParse k s).outcome

end Sys2Proof.Machine
end

