-- ==== Sys2Proof/Machine/Tlv.lean ====
section
/-! DEFINITION. The TLV record walker (file 45). An element operation takes the payload the fetch at `cur` read and
begins with the `need` that covers every byte of its encoding (R251). -/

namespace Sys2Proof.Machine

/-- An element of `n` bytes is consumed: `cur <- cur + n; rem <- rem - 1`. -/
def Tlv.consume (t : Tlv) (n : Nat) : Tlv := { t with cur := t.cur + n, rem := t.rem - 1 }

/-- The registers as `STRUCT` clears them (R252). -/
def Tlv.cleared (t : Tlv) (cnt : Byte) : Tlv :=
  { t with rem := cnt.toNat, cur := t.cur + 2, codeFound := false, scale := 0, scaleExplicit := false, unit := 0,
           uval := 0, uvalPresent := false, sval := 0 }

/-- `STRUCT cnt` at a structure start: the required tag, the count, the holders cleared (R252). -/
def doStruct (cnt : Byte) (s : State) : Flow :=
  need 1 s fun s =>
    if s.byteAt s.tlv.cur ≠ tagStruct then raise .unexpectedTag s
    else need 2 s fun s => .go ((s.setTlv (s.tlv.cleared cnt)).setAlt { s.alt with key := ⟨0, 0, 0⟩ })

/-- `STRUCT.N cnt`: nesting is flattened into `rem` (R254). -/
def doStructN (cnt : Byte) (s : State) : Flow :=
  need 2 s fun s => .go (s.setTlv { s.tlv with rem := s.tlv.rem - 1 + cnt.toNat, cur := s.tlv.cur + 2 })

/-- `SCALE s` (R255). -/
def doScale (e : Byte) (s : State) : Flow :=
  need 2 s fun s => .go (s.setTlv ({ s.tlv with scale := e, scaleExplicit := true }.consume 2))

/-- `UNIT u`, with the implicit -3 rule (R256). -/
def doUnit (u : Byte) (s : State) : Flow :=
  need 2 s fun s =>
    let scale := if implicitApplies s.params s.tlv.scaleExplicit u then implicitScale else s.tlv.scale
    .go (s.setTlv ({ s.tlv with unit := u, scale := scale }.consume 2))

/-- `OCTS Ls, s[0..Ls-1]`: a six-byte string is the register code (R111, R257). -/
def doOcts (ls : Byte) (str : List Byte) (s : State) : Flow :=
  need 2 s fun s =>
    need (2 + ls.toNat) s fun s =>
      if ls = codeLen then
        .go ((s.setTlv ({ s.tlv with codeFound := true }.consume (2 + ls.toNat))).setAlt
          { s.alt with key := ⟨str.getD 2 0, str.getD 3 0, str.getD 4 0⟩ })
      else .go (s.setTlv (s.tlv.consume (2 + ls.toNat)))

/-- `U32 v` (R258). -/
def doU32 (v : Word32) (s : State) : Flow :=
  need 5 s fun s => .go (s.setTlv ({ s.tlv with uval := v, uvalPresent := true }.consume 5))

/-- `I16 v`, sign-extended (R259). -/
def doI16 (v : Half) (s : State) : Flow :=
  need 3 s fun s => .go (s.setTlv ({ s.tlv with sval := sext32 v }.consume 3))

/-- `U16 v`, zero-extended unless `U16_WRAPS_SIGNED` (R260). -/
def doU16 (v : Half) (s : State) : Flow :=
  need 3 s fun s =>
    .go (s.setTlv ({ s.tlv with sval := if s.params.u16WrapsSigned then sext32 v else zext32 v }.consume 3))

/-- `UNK`: soft `UnexpectedTag`, the tag byte consumed, one element counted (R261). -/
def doUnk (s : State) : State :=
  let t := soft .unexpectedTag s
  t.setTlv (t.tlv.consume 1)

/-- The value of `COMMIT` after a ROM hit: the range check, the raw value, the scaled write (R262). -/
def commitValue (s : State) : Flow :=
  if scaleInRange s.tlv.scale then
    (doSclScale (rawValue s.tlv) s.tlv.scale.toInt s).andThen fun t => .go (doAggWr t.latch.romSlot t.latch.value t)
  else raise .malformedValue s

/-- `COMMIT` up to the count: skipped silently without a code or on a ROM miss (R262). -/
def commitSlot (s : State) : Flow :=
  if s.tlv.codeFound then
    let t := doRomLkp s.alt.key s
    if t.latch.romHit then commitValue t else .go t
  else .go s

/-- `COMMIT` (R262). -/
def doCommit (s : State) : Flow :=
  (commitSlot s).andThen fun t => .go (t.setTlv { t.tlv with remStructs := t.tlv.remStructs - 1 })

/-- The `n`-th byte of the element at `cur`. An element cut off by the end of the frame raises before it is used. -/
def State.elemByte (s : State) (n : Nat) : Byte := s.byteAt (s.tlv.cur + n)

/-- One element: the tag at `cur` selects the operation and its payload is read from the buffer (R108, R253). -/
def elementStep (s : State) : Flow :=
  need 1 s fun s =>
    match tagSel (s.elemByte 0) with
    | .structN => doStructN (s.elemByte 1) s
    | .scale => doScale (s.elemByte 1) s
    | .unit => doUnit (s.elemByte 1) s
    | .octs =>
      doOcts (s.elemByte 1) (s.bytes (s.tlv.cur + 2) (s.tlv.cur + 2 + (s.elemByte 1).toNat)) s
    | .u32 => doU32 (be32 (s.elemByte 1) (s.elemByte 2) (s.elemByte 3) (s.elemByte 4)) s
    | .i16 => doI16 (be16 (s.elemByte 1) (s.elemByte 2)) s
    | .u16 => doU16 (be16 (s.elemByte 1) (s.elemByte 2)) s
    | .unk => .go (doUnk s)

/-- The element loop of one structure, `while rem > 0` (R253); `bound` limits it to more elements than the buffer has
bytes (R263). -/
def elementLoop : Nat → State → Flow
  | 0, s => if s.tlv.rem = 0 then .go s else .stop .walkerBound
  | bound + 1, s => if s.tlv.rem = 0 then .go s else (elementStep s).andThen (elementLoop bound)

/-- One structure: `STRUCT`, its elements, `COMMIT` (R253). -/
def structureStep (s : State) : Flow :=
  ((doStruct (s.elemByte 1) s).andThen fun t => elementLoop (t.len + 1 - t.tlv.cur) t).andThen doCommit

/-- The structures of a frame, `while rem_structs > 0`, at most 255 of them (R228). -/
def structureLoop : Nat → State → Flow
  | 0, s => .go s
  | bound + 1, s => if s.tlv.remStructs = 0 then .go s else (structureStep s).andThen (structureLoop bound)

/-- Meaning of `STRUCT` (R252). -/
def execStruct (cnt : Byte) (s : State) : Host.Outcome State Fault Refusal := (doStruct cnt s).outcome

/-- Meaning of `STRUCT.N` (R254). -/
def execStructN (cnt : Byte) (s : State) : Host.Outcome State Fault Refusal := (doStructN cnt s).outcome

/-- Meaning of `SCALE` (R255). -/
def execScale (e : Byte) (s : State) : Host.Outcome State Fault Refusal := (doScale e s).outcome

/-- Meaning of `UNIT` (R256). -/
def execUnit (u : Byte) (s : State) : Host.Outcome State Fault Refusal := (doUnit u s).outcome

/-- Meaning of `OCTS` (R257). -/
def execOcts (ls : Byte) (str : List Byte) (s : State) : Host.Outcome State Fault Refusal := (doOcts ls str s).outcome

/-- Meaning of `U32` (R258). -/
def execU32 (v : Word32) (s : State) : Host.Outcome State Fault Refusal := (doU32 v s).outcome

/-- Meaning of `I16` (R259). -/
def execI16 (v : Half) (s : State) : Host.Outcome State Fault Refusal := (doI16 v s).outcome

/-- Meaning of `U16` (R260). -/
def execU16 (v : Half) (s : State) : Host.Outcome State Fault Refusal := (doU16 v s).outcome

/-- Meaning of `UNK` (R261). -/
def execUnk (s : State) : Host.Outcome State Fault Refusal := .next (doUnk s)

/-- Meaning of `COMMIT` (R262). -/
def execCommit (s : State) : Host.Outcome State Fault Refusal := (doCommit s).outcome

end Sys2Proof.Machine
end

