-- ==== Sys2Proof/Machine/Hdlc.lean ====
section
/-! DEFINITION. The HDLC framer and frame validator HFR (file 44). -/

namespace Sys2Proof.Machine

/-- `H.SKIP b`: the byte is discarded (R221). -/
def doHSkip (s : State) : State := s

/-- `H.OPEN` (R222). -/
def doHOpen (s : State) : State := ((s.store 0 flagByte).setLen 1).setHState .readingFrame

/-- `H.DATA b` (R223). -/
def doHData (b : Byte) (s : State) : Flow := bufAppend b s

/-- `H.CLOSE`; the intake loop stops at `FOUND_FRAME` (R224, R298). -/
def doHClose (s : State) : Flow := (bufAppend flagByte s).andThen fun t => .go (t.setHState .foundFrame)

/-- `H.OVF`: the byte is dropped (R225). -/
def doHOvf (s : State) : Flow := raise .frameTooLarge s

/-- `H.TMO`: no report, the aggregate untouched (R226). -/
def doHTmo (s : State) : State := (s.setLen 0).setHState .outsideFrame

/-- One HDLC stream byte, format F (R106). The intake loop runs outside `FOUND_FRAME` only, where no byte is taken. -/
def hdlcByte (b : Byte) (s : State) : Flow :=
  match hdlcSel s.hstate (bufferFull s) b with
  | .skip => .go (doHSkip s)
  | .openFrame => .go (doHOpen s)
  | .data => doHData b s
  | .closeFrame => doHClose s
  | .ovf => doHOvf s
  | .noByte => .stop .byteInFoundFrame

/-- `V.SIZE` (R229). -/
def doVSize (s : State) : Flow := if s.len < minFrame then raise .frameTooSmall s else .go s

/-- `V.LEN`; `declared != len - 2` (R230). -/
def doVLen (s : State) : Flow :=
  if s.len < lenPos + 2 then .stop .bufReadPastLen
  else if declaredLength (s.byteAt lenPos) (s.byteAt (lenPos + 1)) ≠ s.len - 2 then raise .lengthMismatch s
  else .go s

/-- The `CRCX.UPD` steps of `V.FCS`, one per byte in order (R147, R231). -/
def crcxRun : List Byte → State → State
  | [], s => s
  | b :: bs, s => crcxRun bs (doCrcxUpd b s)

/-- `V.FCS` over `buf[1 .. len-4]`, compared with the two bytes before the closing flag (R231). -/
def doVFcs (s : State) : Flow :=
  if s.len < 3 then .stop .bufReadPastLen
  else
    let t := doCrcxFin (crcxRun (s.bytes 1 (s.len - 3)) (doCrcxClr s))
    if t.fcs ≠ storedFcs t.params.fcsLowFirst (t.byteAt (t.len - 3)) (t.byteAt (t.len - 2)) then raise .crcMismatch t
    else .go t

/-- `V.OK` (R232). -/
def doVOk (s : State) : State := s.setValid true

/-- `H.HDR`: `cur <- 17` (R233). -/
def doHHdr (s : State) : State := s.setTlv { s.tlv with cur := hdrLen }

/-- `H.DATE`, `dl` the byte at `cur`; the date bytes are not read (R234). -/
def doHDate (dl : Byte) (s : State) : Flow :=
  need 1 s fun s => .go (s.setTlv { s.tlv with cur := s.tlv.cur + 1 + dl.toNat })

/-- `ARRAY n`: the required tag, then the structure count (R235). -/
def doArray (n : Byte) (s : State) : Flow :=
  need 1 s fun s =>
    if s.byteAt s.tlv.cur ≠ tagArray then raise .unexpectedTag s
    else need 2 s fun s => .go (s.setTlv { s.tlv with remStructs := n, cur := s.tlv.cur + 2 })

/-- `H.DONE` (R236). -/
def doHDone (s : State) : State := ((s.setComplete true).setHState .outsideFrame).setLen 0

/-- The checks of `H.VALIDATE`, in order, and `V.OK` (R228, R331). -/
def validateChecks (s : State) : Flow :=
  (((doVSize s).andThen doVLen).andThen doVFcs).andThen fun t => .go (doVOk t)

/-- The opening of the structural decode: `H.HDR`, `H.DATE`, `ARRAY` (R228). -/
def decodeOpening (s : State) : Flow :=
  (let t := doHHdr s; doHDate (t.elemByte 0) t).andThen fun t => doArray (t.elemByte 1) t

/-- `H.VALIDATE`: the checks, the opening, the structures, `H.DONE` (R228). -/
def doHValidate (s : State) : Flow :=
  (((validateChecks s).andThen decodeOpening).andThen fun t => structureLoop t.tlv.remStructs.toNat t).andThen
    fun t => .go (doHDone t)

/-- Meaning of `H.SKIP` (R221). -/
def execHSkip (s : State) : Host.Outcome State Fault Refusal := .next (doHSkip s)

/-- Meaning of `H.OPEN` (R222). -/
def execHOpen (s : State) : Host.Outcome State Fault Refusal := .next (doHOpen s)

/-- Meaning of `H.DATA` (R223). -/
def execHData (b : Byte) (s : State) : Host.Outcome State Fault Refusal := (doHData b s).outcome

/-- Meaning of `H.CLOSE` (R224). -/
def execHClose (s : State) : Host.Outcome State Fault Refusal := (doHClose s).outcome

/-- Meaning of `H.OVF` (R225). -/
def execHOvf (s : State) : Host.Outcome State Fault Refusal := (doHOvf s).outcome

/-- Meaning of `H.TMO` (R226). -/
def execHTmo (s : State) : Host.Outcome State Fault Refusal := .next (doHTmo s)

/-- Meaning of `H.VALIDATE` (R228). -/
def execHValidate (s : State) : Host.Outcome State Fault Refusal := (doHValidate s).outcome

/-- Meaning of `V.SIZE` (R229). -/
def execVSize (s : State) : Host.Outcome State Fault Refusal := (doVSize s).outcome

/-- Meaning of `V.LEN` (R230). -/
def execVLen (s : State) : Host.Outcome State Fault Refusal := (doVLen s).outcome

/-- Meaning of `V.FCS` (R231). -/
def execVFcs (s : State) : Host.Outcome State Fault Refusal := (doVFcs s).outcome

/-- Meaning of `V.OK` (R232). -/
def execVOk (s : State) : Host.Outcome State Fault Refusal := .next (doVOk s)

/-- Meaning of `H.HDR` (R233). -/
def execHHdr (s : State) : Host.Outcome State Fault Refusal := .next (doHHdr s)

/-- Meaning of `H.DATE` (R234). -/
def execHDate (dl : Byte) (s : State) : Host.Outcome State Fault Refusal := (doHDate dl s).outcome

/-- Meaning of `ARRAY` (R235). -/
def execArray (n : Byte) (s : State) : Host.Outcome State Fault Refusal := (doArray n s).outcome

/-- Meaning of `H.DONE` (R236). -/
def execHDone (s : State) : Host.Outcome State Fault Refusal := .next (doHDone s)

end Sys2Proof.Machine
end

