-- ==== Sys2Proof/Machine/Facade.lean ====
section
/-! DEFINITION. The host operations RESET, NOP, INVOKE, ABORT and the four things an INVOKE can turn into
(R294 to R301, R360). -/

namespace Sys2Proof.Machine

/-- What the byte source appends before one availability query (R62, R299). -/
def arriveNext (s : State) : State :=
  match s.env.arrivals with
  | [] => s
  | c :: cs => s.setEnv { s.env with queue := s.env.queue ++ c, arrivals := cs }

/-- The intake loop of `F.PARSE.A`, at most `j` bytes, with its mandatory stop (R297). -/
def parseAscii : Nat → State → Flow
  | 0, s => .go s
  | j + 1, s =>
    match (arriveNext s).env.queue with
    | [] => .go (arriveNext s)
    | b :: q =>
      (asciiByte b ((arriveNext s).setQueue q)).andThen fun t =>
        if t.agg.complete then .go t else parseAscii j t

/-- The end of the HDLC intake loop because no byte was available: a timeout drawn in `READING_FRAME` (R226, R298). -/
def hdlcDry (s : State) : State := if s.hstate = .readingFrame ∧ s.env.timeout then doHTmo s else s

/-- The intake loop of `F.PARSE.H`, at most `j` bytes, with its mandatory stop and the timeout (R298). -/
def parseHdlc : Nat → State → Flow
  | 0, s => .go s
  | j + 1, s =>
    match (arriveNext s).env.queue with
    | [] => .go (hdlcDry (arriveNext s))
    | b :: q =>
      (hdlcByte b ((arriveNext s).setQueue q)).andThen fun t =>
        if t.hstate = .foundFrame then .go t else parseHdlc j t

/-- `F.PARSE.A` (R297). -/
def doFParseA (s : State) : Flow := parseAscii s.env.budget.val s

/-- `F.PARSE.H`: a frame is validated in an invocation of its own, which takes no byte (R298). -/
def doFParseH (s : State) : Flow :=
  if s.hstate = .foundFrame then doHValidate s else parseHdlc s.env.budget.val s

/-- `k` deliveries. -/
def deliverRun : Nat → State → Flow
  | 0, s => .go s
  | k + 1, s => (doAggDlv s).andThen (deliverRun k)

/-- `F.DRAIN`: at most `PUBLISH_BATCH` deliveries; the last slot's is followed by `AGG.INIT` (R295). -/
def doFDrain (s : State) : Flow :=
  (deliverRun (min s.params.publishBatch s.agg.pubcur) s).andThen fun t =>
    if t.agg.pubcur = 0 then .go t.aggInit else .go t

/-- `F.DISCARD`: no event (R296). -/
def doFDiscard (s : State) : State := s.aggInit

/-- `INVOKE`: exactly one unit of work (R294). -/
def doInvoke (s : State) : Flow :=
  if s.agg.complete then
    if s.agg.valid then doFDrain s else .go (doFDiscard s)
  else
    match s.protocol with
    | .ascii => doFParseA s
    | .hdlc => doFParseH s

/-- `ABORT` (R300). The transient registers keep what they held, where U22 allows any value: DESIGN CHOICE
(notes/assumptions/28.md). -/
def doAbort (s : State) : State := s.toScanning

/-- `RESET p`; a model starts a fresh trace (R360, R361). The transient registers, unspecified after it, keep what they
held: DESIGN CHOICE (notes/assumptions/2.md). -/
def doReset (p : Protocol) (s : State) : State :=
  { (s.toScanning) with protocol := p, live := true, trace := [] }

/-- `NOP` (R301). -/
def doNop (s : State) : State := s

/-- Meaning of `RESET` (R360). -/
def execReset (p : Protocol) (s : State) : Host.Outcome State Fault Refusal := .next (doReset p s)

/-- Meaning of `NOP` (R301). -/
def execNop (s : State) : Host.Outcome State Fault Refusal := .next (doNop s)

/-- Meaning of `INVOKE` (R294). -/
def execInvoke (s : State) : Host.Outcome State Fault Refusal := (doInvoke s).outcome

/-- Meaning of `ABORT` (R300). -/
def execAbort (s : State) : Host.Outcome State Fault Refusal := .next (doAbort s)

/-- Meaning of `F.DRAIN` (R295). -/
def execFDrain (s : State) : Host.Outcome State Fault Refusal := (doFDrain s).outcome

/-- Meaning of `F.DISCARD` (R296). -/
def execFDiscard (s : State) : Host.Outcome State Fault Refusal := .next (doFDiscard s)

/-- Meaning of `F.PARSE.A` (R297). -/
def execFParseA (s : State) : Host.Outcome State Fault Refusal := (doFParseA s).outcome

/-- Meaning of `F.PARSE.H` (R298). -/
def execFParseH (s : State) : Host.Outcome State Fault Refusal := (doFParseH s).outcome

end Sys2Proof.Machine
end

