-- ==== Sys2Proof/Machine/Dispatch.lean ====
section
/-! DEFINITION. The dispatch: one arm per operation, each one call of its meaning. -/

namespace Sys2Proof.Machine

/-- What an operation does to the machine. -/
def exec (i : Instr) (s : State) : Host.Outcome State Fault Refusal :=
  match i with
  -- host command port (R101)
  | .reset p => Sys2Proof.Machine.execReset p s
  | .nop _ => Sys2Proof.Machine.execNop s
  | .invoke => Sys2Proof.Machine.execInvoke s
  | .abort => Sys2Proof.Machine.execAbort s
  | .fDrain => Sys2Proof.Machine.execFDrain s
  | .fDiscard => Sys2Proof.Machine.execFDiscard s
  | .fParseA => Sys2Proof.Machine.execFParseA s
  | .fParseH => Sys2Proof.Machine.execFParseH s
  -- aggregate
  | .aggInit => Sys2Proof.Machine.execAggInit s
  | .aggWr slot v => Sys2Proof.Machine.execAggWr slot v s
  | .aggDlv => Sys2Proof.Machine.execAggDlv s
  -- CRC engines
  | .crcaClr => Sys2Proof.Machine.execCrcaClr s
  | .crcaUpd b => Sys2Proof.Machine.execCrcaUpd b s
  | .crcxClr => Sys2Proof.Machine.execCrcxClr s
  | .crcxUpd b => Sys2Proof.Machine.execCrcxUpd b s
  | .crcxFin => Sys2Proof.Machine.execCrcxFin s
  -- ROM
  | .romLkp key => Sys2Proof.Machine.execRomLkp key s
  -- decimal parser and scaler
  | .decParse k => Sys2Proof.Machine.execDecParse k s
  | .decSign => Sys2Proof.Machine.execDecSign s
  | .decDigit d => Sys2Proof.Machine.execDecDigit d s
  | .decPoint => Sys2Proof.Machine.execDecPoint s
  | .decFrac d => Sys2Proof.Machine.execDecFrac d s
  | .decEnd => Sys2Proof.Machine.execDecEnd s
  | .decBad _ => Sys2Proof.Machine.execDecBad s
  | .sclScale raw e => Sys2Proof.Machine.execSclScale raw e s
  -- ASCII line tokenizer
  | .aChar b => Sys2Proof.Machine.execAChar b s
  | .aEol => Sys2Proof.Machine.execAEol s
  | .aOvf _ => Sys2Proof.Machine.execAOvf s
  | .lCksum => Sys2Proof.Machine.execLCksum s
  | .hexParse => Sys2Proof.Machine.execHexParse s
  | .lOther => Sys2Proof.Machine.execLOther s
  | .lStrip => Sys2Proof.Machine.execLStrip s
  | .lData => Sys2Proof.Machine.execLData s
  | .tSplit => Sys2Proof.Machine.execTSplit s
  | .idMatch k => Sys2Proof.Machine.execIdMatch k s
  | .keyParse k => Sys2Proof.Machine.execKeyParse k s
  -- HDLC framer and validator
  | .hSkip _ => Sys2Proof.Machine.execHSkip s
  | .hOpen => Sys2Proof.Machine.execHOpen s
  | .hData b => Sys2Proof.Machine.execHData b s
  | .hClose => Sys2Proof.Machine.execHClose s
  | .hOvf _ => Sys2Proof.Machine.execHOvf s
  | .hTmo => Sys2Proof.Machine.execHTmo s
  | .hValidate => Sys2Proof.Machine.execHValidate s
  | .vSize => Sys2Proof.Machine.execVSize s
  | .vLen => Sys2Proof.Machine.execVLen s
  | .vFcs => Sys2Proof.Machine.execVFcs s
  | .vOk => Sys2Proof.Machine.execVOk s
  | .hHdr => Sys2Proof.Machine.execHHdr s
  | .hDate dl => Sys2Proof.Machine.execHDate dl s
  | .array n => Sys2Proof.Machine.execArray n s
  | .hDone => Sys2Proof.Machine.execHDone s
  -- TLV record walker
  | .struct cnt => Sys2Proof.Machine.execStruct cnt s
  | .structN cnt => Sys2Proof.Machine.execStructN cnt s
  | .scale e => Sys2Proof.Machine.execScale e s
  | .unit u => Sys2Proof.Machine.execUnit u s
  | .octs ls str => Sys2Proof.Machine.execOcts ls str s
  | .u32 v => Sys2Proof.Machine.execU32 v s
  | .i16 v => Sys2Proof.Machine.execI16 v s
  | .u16 v => Sys2Proof.Machine.execU16 v s
  | .unk _ => Sys2Proof.Machine.execUnk s
  | .commit => Sys2Proof.Machine.execCommit s
  -- ROM rows (R162)
  | .romRowCumActImp => Sys2Proof.Machine.execRomRowCumActImp s
  | .romRowCumActExp => Sys2Proof.Machine.execRomRowCumActExp s
  | .romRowCumReactImp => Sys2Proof.Machine.execRomRowCumReactImp s
  | .romRowCumReactExp => Sys2Proof.Machine.execRomRowCumReactExp s
  | .romRowInstActImp => Sys2Proof.Machine.execRomRowInstActImp s
  | .romRowInstActExp => Sys2Proof.Machine.execRomRowInstActExp s
  | .romRowInstReactImp => Sys2Proof.Machine.execRomRowInstReactImp s
  | .romRowInstReactExp => Sys2Proof.Machine.execRomRowInstReactExp s
  | .romRowInstActImpL1 => Sys2Proof.Machine.execRomRowInstActImpL1 s
  | .romRowInstActImpL2 => Sys2Proof.Machine.execRomRowInstActImpL2 s
  | .romRowInstActImpL3 => Sys2Proof.Machine.execRomRowInstActImpL3 s
  | .romRowInstActExpL1 => Sys2Proof.Machine.execRomRowInstActExpL1 s
  | .romRowInstActExpL2 => Sys2Proof.Machine.execRomRowInstActExpL2 s
  | .romRowInstActExpL3 => Sys2Proof.Machine.execRomRowInstActExpL3 s
  | .romRowInstReactImpL1 => Sys2Proof.Machine.execRomRowInstReactImpL1 s
  | .romRowInstReactImpL2 => Sys2Proof.Machine.execRomRowInstReactImpL2 s
  | .romRowInstReactImpL3 => Sys2Proof.Machine.execRomRowInstReactImpL3 s
  | .romRowInstReactExpL1 => Sys2Proof.Machine.execRomRowInstReactExpL1 s
  | .romRowInstReactExpL2 => Sys2Proof.Machine.execRomRowInstReactExpL2 s
  | .romRowInstReactExpL3 => Sys2Proof.Machine.execRomRowInstReactExpL3 s
  | .romRowCurrentL1 => Sys2Proof.Machine.execRomRowCurrentL1 s
  | .romRowCurrentL2 => Sys2Proof.Machine.execRomRowCurrentL2 s
  | .romRowCurrentL3 => Sys2Proof.Machine.execRomRowCurrentL3 s
  | .romRowVoltageL1 => Sys2Proof.Machine.execRomRowVoltageL1 s
  | .romRowVoltageL2 => Sys2Proof.Machine.execRomRowVoltageL2 s
  | .romRowVoltageL3 => Sys2Proof.Machine.execRomRowVoltageL3 s

end Sys2Proof.Machine
end

