-- ==== Sys2Proof/Machine/Fetch.lean ====
section
/-! DEFINITION. How a step finds its operation: the host's next event and the decode of its port sample (R101); how
it ends; and how a word of the opcode table is placed so that the very next step runs it. -/

namespace Sys2Proof.Machine

/-- The port with nothing asserted and `cmd = 0b00`: idle (R101). -/
def HostEvent.idle : HostEvent :=
  { arrived := [], rst := false, protocol := .ascii, cmd := 0, budget := Budget.one, timeout := false, arrivals := [] }

/-- A command on the port. -/
def HostEvent.command (c : BitVec 2) : HostEvent := { HostEvent.idle with cmd := c }

/-- The operation a port sample selects. `rst` and a command are distinct events (U37); a sample with `rst` asserted is
the event RESET (R101, R360). -/
def decodePort (ev : HostEvent) : Instr := if ev.rst then .reset ev.protocol else commandSel ev.cmd

/-- The oldest pending host event, idle when there is none. -/
def nextEvent (s : State) : HostEvent := s.env.port.headD HostEvent.idle

/-- The event is taken: what the byte source appended before it is in `Q`, and its draws are in force (R62, R299). -/
def acceptEvent (s : State) : State :=
  match s.env.port with
  | [] => s
  | ev :: rest =>
    s.setEnv { queue := s.env.queue ++ ev.arrived, port := rest, budget := ev.budget, timeout := ev.timeout,
               arrivals := ev.arrivals }

/-- The event is over: what the byte source appended during it and no query saw is in `Q` now (R62).
The transient registers keep what the event left in them, where U22 allows any value: DESIGN CHOICE
(notes/assumptions/28.md). -/
def settle (s : State) : State :=
  s.setEnv { s.env with queue := s.env.queue ++ s.env.arrivals.flatten, arrivals := [] }

/-- `settle` at the end of an outcome. -/
def settleOutcome : Host.Outcome State Fault Refusal → Host.Outcome State Fault Refusal
  | .next s => .next (settle s)
  | .fault f => .fault f
  | .refused r => .refused r

/-- One host event processed to completion (R10). Before the first RESET only RESET has a defined effect (U20). -/
def hostStep (s : State) : Host.Outcome State Fault Refusal :=
  if s.live || (nextEvent s).rst then settleOutcome (exec (decodePort (nextEvent s)) (acceptEvent s))
  else .refused .beforeFirstReset

/-! Placing a word of the opcode table (notes/assumptions/18.md). -/

/-- A host event made the next one. -/
def State.pushEvent (s : State) (ev : HostEvent) : State := s.setEnv { s.env with port := ev :: s.env.port }

/-- `INVOKE` with a budget of one byte made the next event. -/
def State.pushInvoke (s : State) : State := s.pushEvent (HostEvent.command 1)

/-- `buf[0 .. ]` holds `bs` and `len` is their number. -/
def State.loadBuffer (s : State) (bs : List Byte) : State := { s with buf := s.buf.writeRun 0 bs, len := bs.length }

/-- An ASCII line in progress, its next stream byte `b` waiting, and an `INVOKE` to take it. -/
def placeAscii (partialLine : List Byte) (b : Byte) (s : State) : State :=
  (((({ s with protocol := .ascii }.setComplete false).setHState .outsideFrame).loadBuffer partialLine).setQueue
    [b]).pushInvoke

/-- The text of a data line up to the first byte of its value: `1-0:1.8.0(`, with the parameter's prefix. -/
def valueLine (s : State) : List Byte := s.params.dataId ++ [0x3A, 0x31, 0x2E, 0x38, 0x2E, 0x30, 0x28]

/-- The closed frame around a structural payload, its declared length and FCS as the checks require (R107). -/
def frameOf (lowFirst : Bool) (payload : List Byte) : List Byte :=
  let declared := payload.length + 19
  let body := [(0xA0 : Byte) ||| BitVec.ofNat 8 (declared / 256), BitVec.ofNat 8 declared] ++ List.replicate 14 0 ++
    (0 : Byte) :: payload
  let fcs := crcx body
  let lo : Byte := fcs.truncate 8
  let hi : Byte := (fcs >>> 8).truncate 8
  flagByte :: body ++ (if lowFirst then [lo, hi] else [hi, lo]) ++ [flagByte]

/-- A buffered frame with the given structural payload, and an `INVOKE` to validate and walk it. -/
def placeFrame (payload : List Byte) (s : State) : State :=
  (((({ s with protocol := .hdlc }.setComplete false).setHState .foundFrame).loadBuffer
    (frameOf s.params.fcsLowFirst payload)).setQueue []).pushInvoke

/-- The bytes of an element and of the zeros that stand for its operand bytes above the table's word. -/
def paddedElement (bytes : List Byte) : List Byte :=
  match bytes with
  | [t, ls] => if t = tagOcts then t :: ls :: List.replicate ls.toNat 0 else bytes
  | _ => bytes

/-- A table word placed where the machine meets it next, by the position it stands at. -/
def placeWord (nbits w : Nat) (s : State) : State :=
  let bytes := tableBytes nbits w
  let b := bytes.headD 0
  match tableCtx bytes with
  | .command => s.pushEvent (HostEvent.command (b.truncate 2))
  | .asciiByte _ => placeAscii [] b s
  | .hdlcByte _ _ =>
    (((({ s with protocol := .hdlc }.setComplete false).setHState .outsideFrame).setLen 0).setQueue [b]).pushInvoke
  | .line => placeAscii [b] lf s
  | .tokenByte .int => placeAscii (valueLine s ++ [0x30, b]) lf s
  | .tokenByte _ => placeAscii (valueLine s ++ [b]) lf s
  | .dataId _ => placeAscii (bytes ++ [lparen]) lf s
  | .romKey => placeFrame ([tagArray, 1, tagStruct, 1, tagOcts, 6, 0, 0] ++ bytes ++ [0]) s
  | .dateLength => placeFrame [tagArray, 0] s
  | .arrayTag => placeFrame bytes s
  | .structTag => placeFrame ([tagArray, 1] ++ bytes) s
  | .element => placeFrame ([tagArray, 1, tagStruct, 1] ++ paddedElement bytes) s

end Sys2Proof.Machine
end

