-- ==== Sys2Proof/Machine/Step.lean ====
section
/-! DEFINITION. The step: one host event processed to completion (R10). -/

namespace Sys2Proof.Machine

/-- One step of CORE (R10). -/
def step (s : State) : Host.Outcome State Fault Refusal := hostStep s

/-- `s` with a word of spec/opcode_table.json where the very next step meets it. -/
def State.withFetchWord (s : State) (nbits w : Nat) : State := placeWord nbits w s

end Sys2Proof.Machine
end

