-- ==== Sys2Proof/Safety.lean ====
section
/-! DEFINITION. What counts as a safe run of CORE, in the terms claims use: legal parameters, the invariant of every
host-visible point, what an error leaves, the numbers a slot may hold, and the decimal texts the parser accepts. -/

namespace Sys2Proof.Machine

/-! Parameters (R8). -/

/-- The ranges R8 and R165 give the parameters; `decIntMax` is bounded by its decided value, so that R170's range of
values holds (notes/assumptions/21.md). -/
def LegalParams (p : Params) : Prop :=
  17 ≤ p.bufCap ∧ p.bufCap ≤ 4097 ∧
  p.romExtra.length ≤ 2 ∧
  (∀ r ∈ p.romExtra, 26 ≤ r.2.val ∧ ∀ row ∈ romFixed, row.key ≠ r.1) ∧
  (p.romExtra.map Prod.fst).Nodup ∧
  1 ≤ p.publishBatch ∧ p.publishBatch ≤ 28 ∧
  p.dataId.length = 3 ∧
  p.decIntMax ≤ 2147483647

/-! The aggregate. -/

/-- The aggregate at rest: every slot +0.0, the CRC cleared, both flags clear, the cursor at 28 (R291). -/
def Agg.AtRest (a : Agg) : Prop :=
  (∀ i : Fin 28, a.slots.get i = 0x0000000000000000) ∧ a.crc = 0x0000 ∧ a.complete = false ∧ a.valid = false ∧
  a.pubcur = 28

/-- What a fatal error leaves: the abort sequence's registers (R329, R342). -/
def State.Aborted (s : State) : Prop := s.len = 0 ∧ s.hstate = .outsideFrame ∧ s.agg.AtRest

/-- `s` after a fatal error `e`: one report, an empty buffer, `OUTSIDE_FRAME`, the aggregate at rest, and nothing
else changed (R329). The bytes of `buf` stay, `len` being 0; so do the transient
registers, the model's choice (U22; notes/assumptions/28.md). -/
def State.afterAbort (s : State) (e : ErrorCode) : State :=
  { s with trace := s.trace ++ [.report e], len := 0, hstate := .outsideFrame,
           agg := { slots := Vector.replicate 28 0x0000000000000000, crc := 0x0000, complete := false, valid := false,
                    pubcur := 28 } }

/-! The frame buffer. -/

/-- The storage keeps its canonical form, inside the capacity (R26, R27). -/
def State.BufferOk (s : State) : Prop :=
  Memory.wf s.buf = true ∧ Memory.below s.buf s.params.bufCap = true ∧ s.len ≤ s.params.bufCap

/-- Every byte of `buf` other than the one at `a` reads in `t` as in `s`. -/
def SameBytesBut (s t : State) (a : Nat) : Prop := ∀ b, b ≠ a → t.buf.read b = s.buf.read b

/-- `t` differs from `s` by a byte stored at index `a` and by whatever `rest` changes: a store's frame. -/
def StoredByte (s t : State) (a : Nat) (v : Byte) : Prop := t.buf.read a = v ∧ SameBytesBut s t a

/-! The framer's invariants (R28). -/

/-- The clauses of R28 for HDLC mode, by `HSTATE`. -/
def State.FramerOk (s : State) : Prop :=
  (s.hstate = .outsideFrame → s.len = 0) ∧
  (s.hstate = .readingFrame → 1 ≤ s.len ∧ s.buf.read 0 = 0x7E ∧ ∀ i < s.len, 0 < i → s.buf.read i ≠ 0x7E) ∧
  (s.hstate = .foundFrame → 2 ≤ s.len ∧ s.buf.read 0 = 0x7E ∧ s.buf.read (s.len - 1) = 0x7E ∧
    ∀ i < s.len - 1, 0 < i → s.buf.read i ≠ 0x7E)

/-- What holds at every host-visible point, whatever the state before (R22 to R28, R290, R296, R362). -/
def State.Inv (s : State) : Prop :=
  LegalParams s.params ∧ s.BufferOk ∧
  -- the cursor's range (R25)
  1 ≤ s.agg.pubcur ∧ s.agg.pubcur ≤ 28 ∧
  -- the two flags and the buffer (R24, R290, R362)
  (s.agg.complete = false → s.agg.valid = false ∧ s.agg.pubcur = 28) ∧
  (s.agg.complete = true → s.len = 0 ∧ s.hstate = .outsideFrame) ∧
  -- ASCII mode: no framer state, a line in progress holds no terminator (R28, R83)
  (s.protocol = .ascii → s.hstate = .outsideFrame ∧ ∀ i < s.len, s.buf.read i ≠ 0x0A) ∧
  -- HDLC mode: no ARC checksum, the framer's clauses, no discard phase, no value before its frame is complete
  (s.protocol = .hdlc →
    s.agg.crc = 0x0000 ∧ s.FramerOk ∧
    (s.agg.complete = true → s.agg.valid = true) ∧
    (s.agg.complete = false → ∀ i : Fin 28, s.agg.slots.get i = 0x0000000000000000))

/-! Slot values (R15, R170). -/

/-- The biased exponent field of a binary64 pattern. -/
def f64Exponent (v : F64) : Nat := v.toNat / 2 ^ 52 % 2 ^ 11

/-- The number a binary64 pattern stands for, infinities and NaNs apart. -/
def f64Rat (v : F64) : ℚ :=
  let frac : Nat := v.toNat % 2 ^ 52
  let mag : ℚ :=
    if f64Exponent v = 0 then (frac : ℚ) * (2 : ℚ) ^ (-1074 : ℤ)
    else ((2 ^ 52 + frac : Nat) : ℚ) * (2 : ℚ) ^ ((f64Exponent v : ℤ) - 1075)
  if v.toNat / 2 ^ 63 = 1 then -mag else mag

/-- A normal number or +0.0: no infinity, no NaN, no subnormal, no -0.0 (R170). -/
def OrdinaryValue (v : F64) : Prop := v = 0x0000000000000000 ∨ (1 ≤ f64Exponent v ∧ f64Exponent v ≤ 2046)

/-- `v` is `round64 q`: finite, nearest to `q`, of two nearest the even one, and +0.0 for zero (R15). -/
def RoundsTo (q : ℚ) (v : F64) : Prop :=
  f64Exponent v ≤ 2046 ∧
  (∀ w : F64, f64Exponent w ≤ 2046 → |f64Rat v - q| ≤ |f64Rat w - q|) ∧
  (∀ w : F64, f64Exponent w ≤ 2046 → |f64Rat w - q| = |f64Rat v - q| → f64Rat w ≠ f64Rat v → v.toNat % 2 = 0) ∧
  (f64Rat v = 0 → v = 0x0000000000000000)

/-- Every slot holds a value R170 allows. -/
def State.SlotsOrdinary (s : State) : Prop := ∀ i : Fin 28, OrdinaryValue (s.agg.slots.get i)

/-! Decimal text (R171). -/

/-- A run of decimal digits. -/
def AllDigits (t : List Byte) : Prop := ∀ b ∈ t, 0x30 ≤ b.toNat ∧ b.toNat ≤ 0x39

/-- The number a run of digits spells, most significant first (R112, R114). -/
def digitsToNat (t : List Byte) : Nat := t.foldl (fun a b => a * 10 + (b.toNat - 0x30)) 0

/-- The text `[-] digit+ '.' digit*` by its parts (R171). -/
def decimalText (neg : Bool) (ip fp : List Byte) : List Byte := (if neg then [0x2D] else []) ++ ip ++ [0x2E] ++ fp

/-- A value text the parser accepts, by its parts: the grammar of R171 and the magnitude cap of R173. -/
def DecimalParts (cap : Nat) (t : List Byte) (neg : Bool) (ip fp : List Byte) : Prop :=
  t = decimalText neg ip fp ∧ AllDigits ip ∧ ip ≠ [] ∧ AllDigits fp ∧ 1 ≤ fp.length ∧ fp.length ≤ 3 ∧
  digitsToNat ip ≤ cap

/-- The exact rational of an accepted text (R176). -/
def decimalRat (neg : Bool) (ip fp : List Byte) : ℚ :=
  let q : ℚ := ((digitsToNat ip * 10 ^ fp.length + digitsToNat fp : Nat) : ℚ) / (10 ^ fp.length : ℚ)
  if neg then -q else q

/-! The ROM's rows, the layout of a data line, the stored check of a frame. -/

/-- The 26 rows of R162 as its table lists them: the operation, the key, the slot. -/
def romTable : List (Instr × (Byte × Byte × Byte) × Fin 28) :=
  [(.romRowCumActImp, (1, 8, 0), 0), (.romRowCumActExp, (2, 8, 0), 1),
   (.romRowCumReactImp, (3, 8, 0), 2), (.romRowCumReactExp, (4, 8, 0), 3),
   (.romRowInstActImp, (1, 7, 0), 4), (.romRowInstActExp, (2, 7, 0), 5),
   (.romRowInstReactImp, (3, 7, 0), 6), (.romRowInstReactExp, (4, 7, 0), 7),
   (.romRowInstActImpL1, (21, 7, 0), 8), (.romRowInstActImpL2, (41, 7, 0), 9),
   (.romRowInstActImpL3, (61, 7, 0), 10), (.romRowInstActExpL1, (22, 7, 0), 11),
   (.romRowInstActExpL2, (42, 7, 0), 12)] ++
  [(.romRowInstActExpL3, (62, 7, 0), 13), (.romRowInstReactImpL1, (23, 7, 0), 14),
   (.romRowInstReactImpL2, (43, 7, 0), 15), (.romRowInstReactImpL3, (63, 7, 0), 16),
   (.romRowInstReactExpL1, (24, 7, 0), 17), (.romRowInstReactExpL2, (44, 7, 0), 18),
   (.romRowInstReactExpL3, (64, 7, 0), 19), (.romRowCurrentL1, (31, 7, 0), 20),
   (.romRowCurrentL2, (51, 7, 0), 21), (.romRowCurrentL3, (71, 7, 0), 22),
   (.romRowVoltageL1, (32, 7, 0), 23), (.romRowVoltageL2, (52, 7, 0), 24),
   (.romRowVoltageL3, (72, 7, 0), 25)]

/-- A key segment of R203: one to three digits, value at most 255. -/
def KeySegment (g : List Byte) : Prop :=
  AllDigits g ∧ 1 ≤ g.length ∧ g.length ≤ 3 ∧ digitsToNat g ≤ 255

/-- The tokens of a stripped line in order, all of them: what stands between the delimiters, empty fields apart
(R201). -/
def lineTokens (line : List Byte) : List (List Byte) :=
  (line.splitOnP fun b => decide (b ∈ ([0x28, 0x29, 0x2A, 0x3A] : List Byte))).filter fun t => !t.isEmpty

/-- The text of a register code as R203 reads it. -/
def CodeText (code : List Byte) (key : Key) : Prop :=
  ∃ g0 g1 g2, code = g0 ++ [0x2E] ++ g1 ++ [0x2E] ++ g2 ∧
    KeySegment g0 ∧ KeySegment g1 ∧ KeySegment g2 ∧
    key = ⟨BitVec.ofNat 8 (digitsToNat g0), BitVec.ofNat 8 (digitsToNat g1), BitVec.ofNat 8 (digitsToNat g2)⟩

/-- The FCS a buffered frame stores before its closing flag, in the order of the parameter (R73). -/
def storedCheck (s : State) : Half :=
  if s.params.fcsLowFirst = true then s.buf.read (s.len - 2) ++ s.buf.read (s.len - 3)
  else s.buf.read (s.len - 3) ++ s.buf.read (s.len - 2)

/-! The walk of a frame's structures, as a relation over single operations. -/

/-- Where the walker stands: before a structure (or at the end of the last), or at an element of one (R118, R253). -/
inductive WalkAt where
  | structureStart
  | element
  deriving DecidableEq, Repr

/-- `COMMIT` will use the exponent: a code was found and the ROM knows it (R262). -/
def State.usesScale (s : State) : Prop :=
  s.tlv.codeFound = true ∧ romSlotOf s.params.romExtra s.alt.key ≠ none

/-- `Walk at s t`: from `s` the walk of the remaining structures ends the `INVOKE` in `t` (R228, R253). Each step is
`exec` of the operation that `decode` reads at `cur`, while `rem > 0` and `rem_structs > 0`; `COMMIT` closes a
structure; the walk ends as `H.DONE` leaves the state (R236), or at the first error in the state of the abort sequence
(R329). -/
inductive Walk : WalkAt → State → State → Prop where
  | done {s : State} : s.tlv.remStructs = 0 →
      Walk .structureStart s { s with agg := { s.agg with complete := true }, hstate := .outsideFrame, len := 0 }
  | openStructure {s u t : State} {i : Instr} {rest : List Byte} : s.tlv.remStructs ≠ 0 →
      decode .structTag (s.bytes s.tlv.cur s.len) = .ok (i, rest) → exec i s = .next u → Walk .element u t →
      Walk .structureStart s t
  | wrongTag {s : State} {b : Byte} : s.tlv.remStructs ≠ 0 →
      decode .structTag (s.bytes s.tlv.cur s.len) = .error (.wrongTag b) →
      Walk .structureStart s (s.afterAbort .unexpectedTag)
  | cutStructure {s : State} : s.tlv.remStructs ≠ 0 →
      decode .structTag (s.bytes s.tlv.cur s.len) = .error .truncated →
      Walk .structureStart s (s.afterAbort .truncatedStruct)
  | element {s u t : State} {i : Instr} {rest : List Byte} : s.tlv.rem ≠ 0 →
      decode .element (s.bytes s.tlv.cur s.len) = .ok (i, rest) → exec i s = .next u → Walk .element u t →
      Walk .element s t
  | cutElement {s : State} {e : DecodeError} : s.tlv.rem ≠ 0 →
      decode .element (s.bytes s.tlv.cur s.len) = .error e → Walk .element s (s.afterAbort .truncatedStruct)
  | commit {s u t : State} : s.tlv.rem = 0 →
      (s.usesScale → -4 ≤ s.tlv.scale.toInt ∧ s.tlv.scale.toInt ≤ 5) →
      exec .commit s = .next u → Walk .structureStart u t → Walk .element s t
  | badExponent {s t : State} : s.tlv.rem = 0 → s.usesScale →
      ¬ (-4 ≤ s.tlv.scale.toInt ∧ s.tlv.scale.toInt ≤ 5) → exec .commit s = .next t → Walk .element s t

/-! Events. -/

/-- A delivery, as opposed to a report. -/
def Event.isDeliver : Event → Bool
  | .deliver _ _ => true
  | .report _ => false

/-- The deliveries of slots `from` to `from + k - 1`, ascending (R293, R295). -/
def deliveries (slots : Vector F64 28) (start k : Nat) : List Event :=
  ((List.finRange 28).filter fun i => decide (start ≤ i.val) && decide (i.val < start + k)).map fun i =>
    Event.deliver i (slots.get i)

/-- An error whose effect is the abort sequence, in protocol `p`: every one but the unknown tag, which may be soft, and
the ASCII checksum mismatch, which is deferred (R320, R321, R326). -/
def fatalIn (p : Protocol) (e : ErrorCode) : Bool := e != .unexpectedTag && !(p == .ascii && e == .crcMismatch)

/-- `k` invocations on end, each the operation on its own. -/
def invocations : Nat → State → Host.Outcome State Fault Refusal
  | 0, s => .next s
  | k + 1, s =>
    match exec .invoke s with
    | .next t => invocations k t
    | .fault f => .fault f
    | .refused r => .refused r

end Sys2Proof.Machine
end

