-- ==== Sys2Proof/Certificates/Slice0/Obligations.lean ====
section
/-! DEFINITION. The statements about CORE for the provers, from the spec's numbered rules. A next state written
`{ s with … }` says the whole frame: every field not named, the buffer and so every byte of it among them, is `s`'s.
That a transient register (R30 to R52) among those fields still holds its value where the host event ends, at a raise or
at the end of a host's command, is the model's choice (U22; notes/assumptions/28.md). -/

open Sys2Proof Sys2Proof.Machine

/-! ## The host port and reset -/

/-- The host's commands and `F.DISCARD`, from every state: RESET samples the protocol and starts over, ABORT keeps the
protocol, both codes of NOP change nothing, `F.DISCARD` is `AGG.INIT` alone; none of them touches the queue (R296,
R300, R301, R360, R361). The fresh trace and the `live` bit of RESET are the model's (notes/assumptions/11.md, 15.md).
What the transient registers hold after the event is the model's choice (notes/assumptions/28.md). -/
def Obligations.HostCommands : Prop :=
  ∀ s : State,
    (∀ p : Protocol, exec (.reset p) s = .next { s with
      protocol := p, live := true, len := 0, hstate := .outsideFrame, trace := []
      agg := { slots := Vector.replicate 28 0x0000000000000000, crc := 0x0000, complete := false, valid := false,
               pubcur := 28 } }) ∧
    exec .abort s = .next { s with
      len := 0, hstate := .outsideFrame
      agg := { slots := Vector.replicate 28 0x0000000000000000, crc := 0x0000, complete := false, valid := false,
               pubcur := 28 } } ∧
    (∀ reserved : Bool, exec (.nop reserved) s = .next s) ∧
    exec .fDiscard s = .next { s with
      agg := { slots := Vector.replicate 28 0x0000000000000000, crc := 0x0000, complete := false, valid := false,
               pubcur := 28 } } ∧
    decode .command [0b00] = .ok (.nop false, []) ∧ decode .command [0b01] = .ok (.invoke, []) ∧
    decode .command [0b10] = .ok (.abort, []) ∧ decode .command [0b11] = .ok (.nop true, [])

/-- The state after reset meets the invariant, shows both status outputs clear, and is a fixed point of RESET(ascii)
(R361). Its protocol and its transient registers are the model's choice (notes/assumptions/2.md, 4.md). -/
def Obligations.InvAtReset : Prop :=
  State.reset.Inv ∧ State.reset.Aborted ∧ State.reset.SlotsOrdinary ∧ State.reset.trace = [] ∧
  exec (.reset .ascii) State.reset = .next State.reset

/-- Every step from a state of the invariant ends in one (R22 to R28, R290, R362). -/
def Obligations.InvKeptByStep : Prop := ∀ s t : State, s.Inv → step s = .next t → t.Inv

/-- Nothing halts CORE: once reset, every host event is accepted from every state of the invariant, with whatever
command, draws and arriving bytes (R334). -/
def Obligations.EveryEventAccepted : Prop :=
  ∀ s : State, s.Inv → s.live = true → ∃ t, step s = .next t ∧ t.Inv ∧ t.live = true ∧ t.params = s.params

/-- Before the first RESET no other host event, and no idle port, has a defined effect: the step is refused, which is
the model's choice (R361, U20; notes/assumptions/15.md). That a sample with `rst` is RESET also where `cmd` selects
something is the model's choice as well (U37; notes/assumptions/14.md). -/
def Obligations.BeforeFirstReset : Prop :=
  ∀ s : State, s.live = false →
    (s.env.port = [] → step s = .refused .beforeFirstReset) ∧
    ∀ (ev : HostEvent) (rest : List HostEvent), s.env.port = ev :: rest →
      (ev.rst = false → step s = .refused .beforeFirstReset) ∧
      (ev.rst = true → ∃ t, step s = .next t ∧ t.live = true ∧ t.protocol = ev.protocol ∧ t.Aborted)

/-- One step runs the operation the port sample decodes to: RESET when `rst` is asserted, else what `cmd` selects
(R101), on the state with the bytes that arrived before it in `Q` and its draws in force (R62, R299); what no query saw
is in `Q` afterwards. For a sample with `rst` and a command together, which U37 leaves open, that it is RESET alone is
the model's choice (notes/assumptions/14.md). -/
def Obligations.StepRunsDecoded : Prop :=
  ∀ (s : State) (ev : HostEvent) (rest : List HostEvent) (i : Instr),
    s.env.port = ev :: rest → (s.live = true ∨ ev.rst = true) →
    (ev.rst = true → i = .reset ev.protocol) →
    (ev.rst = false → decode .command [ev.cmd.zeroExtend 8] = .ok (i, [])) →
    let u : State := { s with env := { queue := s.env.queue ++ ev.arrived, port := rest, budget := ev.budget,
                                       timeout := ev.timeout, arrivals := ev.arrivals } }
    i.wf = true ∧
    (∀ t, exec i u = .next t → step s = .next
      { t with env := { t.env with queue := t.env.queue ++ t.env.arrivals.flatten, arrivals := [] } }) ∧
    (∀ f, exec i u = .fault f → step s = .fault f) ∧
    (∀ r, exec i u = .refused r → step s = .refused r)

/-- The four ways to the initial state end in the state of ABORT, up to the events (R362): RESET, a raise (the
machine's `raise`, and operations that do nothing else), `F.DISCARD`, and the `F.DRAIN` of the last slot. What the
transient registers hold after the event is the model's choice (notes/assumptions/28.md). -/
def Obligations.WaysToInitialState : Prop :=
  ∀ s : State, s.Inv → ∃ a, exec .abort s = .next a ∧
    exec (.reset s.protocol) s = .next { a with trace := [], live := true } ∧
    (∀ e, (raise e s).outcome = .next { a with trace := s.trace ++ [.report e] } ∧
      s.afterAbort e = { a with trace := s.trace ++ [.report e] }) ∧
    (∀ b, exec (.aOvf b) s = .next { a with trace := s.trace ++ [.report .frameTooLarge] } ∧
      exec (.hOvf b) s = .next { a with trace := s.trace ++ [.report .frameTooLarge] } ∧
      exec (.decBad b) s = .next { a with trace := s.trace ++ [.report .malformedValue] }) ∧
    (s.len < 17 → exec .vSize s = .next { a with trace := s.trace ++ [.report .frameTooSmall] }) ∧
    (s.agg.complete = true → s.agg.valid = false → exec .fDiscard s = .next a) ∧
    (s.agg.complete = true → s.agg.valid = true → s.agg.pubcur ≤ s.params.publishBatch →
      exec .fDrain s = .next { a with trace := s.trace ++ deliveries s.agg.slots (28 - s.agg.pubcur) s.agg.pubcur })

/-! ## The facade -/

/-- `INVOKE` is exactly one of four, chosen by two flags and the protocol (R294). -/
def Obligations.InvokeDispatch : Prop :=
  ∀ s : State, exec .invoke s =
    if s.agg.complete = true then (if s.agg.valid = true then exec .fDrain s else exec .fDiscard s)
    else if s.protocol = .ascii then exec .fParseA s else exec .fParseH s

/-- Every `INVOKE` from a state of the invariant completes, and so does the parse it selects; the protocol, the
parameters and what the trace already holds stay (R20, R294, R297, R298, R334). -/
def Obligations.InvokeCompletes : Prop :=
  ∀ s : State, s.Inv →
    let completes := fun i : Instr =>
      ∃ t, exec i s = .next t ∧ t.Inv ∧ t.params = s.params ∧ t.protocol = s.protocol ∧ s.trace <+: t.trace
    completes .invoke ∧
    (s.agg.complete = false → s.protocol = .ascii → completes .fParseA) ∧
    (s.agg.complete = false → s.protocol = .hdlc → completes .fParseH)

/-- `F.DRAIN`: the next `min(PUBLISH_BATCH, PUBCUR)` slots in ascending order, then `AGG.INIT` after the last (R295).
What the transient registers hold after the event is the model's choice (notes/assumptions/28.md). -/
def Obligations.DrainResult : Prop :=
  ∀ s : State, s.agg.pubcur ≤ 28 →
    let k := min s.params.publishBatch s.agg.pubcur
    exec .fDrain s = .next { s with
      trace := s.trace ++ deliveries s.agg.slots (28 - s.agg.pubcur) k
      agg := if k = s.agg.pubcur then
          { slots := Vector.replicate 28 0x0000000000000000, crc := 0x0000, complete := false, valid := false,
            pubcur := 28 }
        else { s.agg with pubcur := s.agg.pubcur - k } }

/-- A whole drain: `ceil(28 / PUBLISH_BATCH)` invocations of a complete, valid aggregate deliver all 28 slots once, in
index order, with nothing in between, and leave the aggregate at rest, for every batch (R295, R306). What the
transient registers hold after the event is the model's choice (notes/assumptions/28.md). -/
def Obligations.WholeDrain : Prop :=
  ∀ s : State, s.agg.complete = true → s.agg.valid = true → s.agg.pubcur = 28 →
    1 ≤ s.params.publishBatch → s.params.publishBatch ≤ 28 →
    invocations ((27 + s.params.publishBatch) / s.params.publishBatch) s = .next { s with
      trace := s.trace ++ (List.finRange 28).map fun i => Event.deliver i (s.agg.slots.get i)
      agg := { slots := Vector.replicate 28 0x0000000000000000, crc := 0x0000, complete := false, valid := false,
               pubcur := 28 } }

/-- The delivery condition, over every host event but RESET: a step only appends to the trace, and it delivers only
when the telegram was complete and valid before it; then it does nothing else visible (R302). -/
def Obligations.DeliveryCondition : Prop :=
  ∀ s t : State, step s = .next t → (nextEvent s).rst = false →
    ∃ evs, t.trace = s.trace ++ evs ∧
      ((∃ ev ∈ evs, ev.isDeliver = true) →
        s.agg.complete = true ∧ s.agg.valid = true ∧ ∀ ev ∈ evs, ev.isDeliver = true)

/-- A fatal error of an `INVOKE` is its last event and leaves what R342 says. An `UnexpectedTag` was soft in a frame that
completed, or the `INVOKE` ended with a fatal report, its own or a later one; what precedes the last event of a parsing
`INVOKE` is soft (R326, R329, R333, R342). -/
def Obligations.FatalErrorEndsInvoke : Prop :=
  ∀ s t : State, exec .invoke s = .next t →
    ∃ evs, t.trace = s.trace ++ evs ∧
      (∀ e, .report e ∈ evs → fatalIn s.protocol e = true → evs.getLast? = some (.report e) ∧ t.Aborted) ∧
      (.report .unexpectedTag ∈ evs →
        (t.agg.complete = true ∧ t.agg.valid = true) ∨ ((∃ e, evs.getLast? = some (.report e)) ∧ t.Aborted)) ∧
      (s.agg.complete = false → ∀ ev ∈ evs.dropLast, ev = .report .unexpectedTag)

/-- No operation writes a parameter; only RESET writes `PROTOCOL` (R20, R57). -/
def Obligations.ConfigurationFixed : Prop :=
  ∀ (i : Instr) (s t : State), exec i s = .next t →
    t.params = s.params ∧ ((∀ p, i ≠ .reset p) → t.protocol = s.protocol ∧ t.live = s.live)

/-- An `INVOKE` removes the oldest bytes of the queue and no others, at most `j` of them, and none while it drains,
discards or validates (R62, R80, R294, R298, R299). -/
def Obligations.QueueConsumed : Prop :=
  ∀ s t : State, exec .invoke s = .next t →
    ∃ (taken : List Byte) (k : Nat), taken.length ≤ s.env.budget.val ∧
      s.env.queue ++ (s.env.arrivals.take k).flatten = taken ++ t.env.queue ∧
      t.env.arrivals = s.env.arrivals.drop k ∧ t.env.port = s.env.port ∧
      (s.agg.complete = true ∨ (s.protocol = .hdlc ∧ s.hstate = .foundFrame) → taken = [] ∧ k = 0)

/-- A partial line: bytes without a terminator, within the capacity, up to the budget or the end of the queue, are
stored from `len` on, fed to the checksum by the feed rule, and kept for the next `INVOKE` (R191, R194, R206, R297).
What the transient registers hold after the event is the model's choice (notes/assumptions/28.md). -/
def Obligations.PartialLineIntake : Prop :=
  ∀ (s : State) (bs rest : List Byte),
    Memory.wf s.buf = true → s.agg.complete = false → s.env.queue = bs ++ rest → s.env.arrivals = [] →
    (s.env.budget.val = bs.length ∨ (rest = [] ∧ bs.length ≤ s.env.budget.val)) →
    (∀ b ∈ bs, b ≠ 0x0A) → s.len + bs.length ≤ s.params.bufCap →
    let fed := if s.len = 0 then (if bs.head? = some 0x21 then [0x21] else bs)
               else if s.buf.read 0 = 0x21 then [] else bs
    ∃ t, exec .fParseA s = .next t ∧
      t = { s with buf := t.buf, len := s.len + bs.length,
                   agg := { s.agg with crc := crcBytes 0xA001 s.agg.crc fed },
                   env := { s.env with queue := rest } } ∧
      (∀ (i : Nat) (h : i < bs.length), t.buf.read (s.len + i) = bs[i]) ∧
      ∀ a, a < s.len ∨ s.len + bs.length ≤ a → t.buf.read a = s.buf.read a

/-- A whole frame: from `OUTSIDE_FRAME` a flag, a body without flags and a flag are buffered from index 0, the
invocation stops at `FOUND_FRAME`, and the bytes after the closing flag stay queued (R222 to R224, R298). What the
transient registers hold after the event is the model's choice (notes/assumptions/28.md). -/
def Obligations.FrameIntake : Prop :=
  ∀ (s : State) (body rest : List Byte),
    Memory.wf s.buf = true → s.hstate = .outsideFrame →
    s.env.queue = 0x7E :: (body ++ 0x7E :: rest) → s.env.arrivals = [] → body.length + 2 ≤ s.env.budget.val →
    (∀ b ∈ body, b ≠ 0x7E) → body.length + 2 ≤ s.params.bufCap →
    ∃ t, exec .fParseH s = .next t ∧
      t = { s with buf := t.buf, len := body.length + 2, hstate := .foundFrame, env := { s.env with queue := rest } } ∧
      t.buf.read 0 = 0x7E ∧ t.buf.read (body.length + 1) = 0x7E ∧
      (∀ (i : Nat) (h : i < body.length), t.buf.read (i + 1) = body[i]) ∧
      ∀ a, body.length + 2 ≤ a → t.buf.read a = s.buf.read a

/-- Where the intake loop is cut does not matter: `j1 + j2` bytes in one invocation are `j1` and then `j2`, unless the
first part met a mandatory stop or an error; in HDLC mode while no timeout is drawn (R206, R227, R305). -/
def Obligations.CutInvariance : Prop :=
  (∀ (j1 j2 : Nat) (s : State), s.agg.complete = false → s.env.arrivals = [] →
    parseAscii (j1 + j2) s =
      (parseAscii j1 s).andThen fun t => if t.agg.complete = true then .go t else parseAscii j2 t) ∧
  (∀ (j1 j2 : Nat) (s : State), s.hstate ≠ .foundFrame → s.env.arrivals = [] → s.env.timeout = false →
    parseHdlc (j1 + j2) s =
      (parseHdlc j1 s).andThen fun t => if t.hstate = .foundFrame then .go t else parseHdlc j2 t)

/-- An empty queue: ASCII mode suspends whatever the timeout; the framer suspends unless it reads a frame and the
timeout is drawn, which drops the partial frame without a report (R206, R226, R227, R298). What the transient
registers hold after the event is the model's choice (notes/assumptions/28.md). -/
def Obligations.DryQueue : Prop :=
  ∀ s : State, s.env.queue = [] → s.env.arrivals = [] →
    exec .fParseA s = .next s ∧
    (s.hstate = .outsideFrame → exec .fParseH s = .next s) ∧
    (s.hstate = .readingFrame → s.env.timeout = false → exec .fParseH s = .next s) ∧
    (s.hstate = .readingFrame → s.env.timeout = true →
      exec .fParseH s = .next { s with len := 0, hstate := .outsideFrame })

/-! ## The aggregate -/

/-- `AGG.INIT`, `AGG.WR` and `AGG.DLV` (R291 to R293). -/
def Obligations.AggregateOperations : Prop :=
  (∀ s : State, exec .aggInit s = .next { s with
    agg := { slots := Vector.replicate 28 0x0000000000000000, crc := 0x0000, complete := false, valid := false,
             pubcur := 28 } }) ∧
  (∀ (i : Fin 28) (v : F64) (s : State), ∃ t, exec (.aggWr i v) s = .next t ∧
    t = { s with agg := { s.agg with slots := t.agg.slots } } ∧ t.agg.slots.get i = v ∧
    ∀ j, j ≠ i → t.agg.slots.get j = s.agg.slots.get j) ∧
  (∀ (s : State) (i : Fin 28), s.agg.pubcur = 28 - i.val →
    exec .aggDlv s = .next { s with trace := s.trace ++ [.deliver i (s.agg.slots.get i)],
                                    agg := { s.agg with pubcur := s.agg.pubcur - 1 } })

/-! ## The CRC engines -/

/-- `CRCA.CLR`, `CRCA.UPD`, `CRCX.CLR`, `CRCX.UPD`, `CRCX.FIN`: a byte is added to the low end and the register shifted
eight times, the polynomial added whenever a 1 leaves (R141, R142, R146 to R148). -/
def Obligations.CrcOperations : Prop :=
  ∀ (b : Byte) (s : State),
    exec .crcaClr s = .next { s with agg := { s.agg with crc := 0x0000 } } ∧
    exec (.crcaUpd b) s = .next { s with agg := { s.agg with
      crc := (fun c : Half => if c.getLsbD 0 = true then (c >>> 1) ^^^ 0xA001 else c >>> 1)^[8]
        (s.agg.crc ^^^ b.zeroExtend 16) } } ∧
    exec .crcxClr s = .next { s with fcs := 0xFFFF } ∧
    exec (.crcxUpd b) s = .next { s with
      fcs := (fun c : Half => if c.getLsbD 0 = true then (c >>> 1) ^^^ 0x8408 else c >>> 1)^[8]
        (s.fcs ^^^ b.zeroExtend 16) } ∧
    exec .crcxFin s = .next { s with fcs := s.fcs ^^^ 0xFFFF } ∧
    crca [] = 0x0000 ∧ crcx [] = 0x0000

/-- Both checksums notice every change of a single byte of the fed sequence, its length unchanged (R150). -/
def Obligations.OneByteChangeDetected : Prop :=
  ∀ (pre post : List Byte) (x y : Byte), x ≠ y →
    crca (pre ++ x :: post) ≠ crca (pre ++ y :: post) ∧ crcx (pre ++ x :: post) ≠ crcx (pre ++ y :: post)

/-- The residues: a sequence followed by its own checksum, low byte first, leaves zero in the ARC register and
`0xF0B8` in the X-25 register, the incremental form of both engines (R143; vectors V-CRCA-13, V-CRCX-8). -/
def Obligations.ChecksumResidues : Prop :=
  ∀ bs : List Byte,
    crca (bs ++ [(crca bs).extractLsb' 0 8, (crca bs).extractLsb' 8 8]) = 0x0000 ∧
    crcBytes 0x8408 0xFFFF (bs ++ [(crcx bs).extractLsb' 0 8, (crcx bs).extractLsb' 8 8]) = 0xF0B8

/-! ## The register ROM -/

/-- Every row of the fixed ROM: the row's operation drives its slot out with `hit`, and presenting its key to
`ROM.LKP` does the same, whatever `ROM_EXTRA` (R161, R162). That a row is an operation, and that its result stands in a
latch, is the model's choice (notes/assumptions/25.md, 10.md). -/
def Obligations.RomRows : Prop :=
  romTable.length = 26 ∧
  ∀ row ∈ romTable, ∀ s : State,
    exec row.1 s = .next { s with latch := { s.latch with romHit := true, romSlot := row.2.2 } } ∧
    exec (.romLkp ⟨row.2.1.1, row.2.1.2.1, row.2.1.2.2⟩) s = exec row.1 s

/-- `ROM.LKP` of any key, `ROM_EXTRA` included: a hit exactly when a row has the key, with that row's slot; a miss is
silent (R161, R164, R165). -/
def Obligations.RomLookup : Prop :=
  ∀ (s : State) (key : Key), LegalParams s.params →
    (∀ slot : Fin 28,
      ((∃ row ∈ romTable, row.2 = ((key.c, key.d, key.e), slot)) ∨ (key, slot) ∈ s.params.romExtra) →
      exec (.romLkp key) s = .next { s with latch := { s.latch with romHit := true, romSlot := slot } }) ∧
    ((∀ row ∈ romTable, row.2.1 ≠ (key.c, key.d, key.e)) → (∀ r ∈ s.params.romExtra, r.1 ≠ key) →
      exec (.romLkp key) s = .next { s with latch := { s.latch with romHit := false } })

/-! ## The decimal parser and the scaler -/

/-- The selection table of the decimal parser, every byte in every state (R177). -/
def Obligations.DecimalSelection : Prop :=
  ∀ b : Byte,
    (0x30 ≤ b.toNat ∧ b.toNat ≤ 0x39 →
      (∀ d ∈ [DState.start, .sign, .int],
        decode (.tokenByte d) [b] = .ok (.decDigit (BitVec.ofNat 4 (b.toNat - 0x30)), [])) ∧
      (∀ d ∈ [DState.point, .frac],
        decode (.tokenByte d) [b] = .ok (.decFrac (BitVec.ofNat 4 (b.toNat - 0x30)), []))) ∧
    (¬(0x30 ≤ b.toNat ∧ b.toNat ≤ 0x39) → ∀ d : DState,
      decode (.tokenByte d) [b] =
        if b = 0x2D ∧ d = .start then .ok (.decSign, [])
        else if b = 0x2E ∧ d = .int then .ok (.decPoint, [])
        else .ok (.decBad b, [])) ∧
    ∀ d : DState, decode (.tokenByte d) [] = .ok (.decEnd, [])

/-- `DEC.SIGN`, `DEC.POINT`, and `DEC.DIGIT` and `DEC.FRAC` within and beyond their limits (R172 to R175). What the
transient registers hold after the raise is the model's choice (notes/assumptions/28.md). -/
def Obligations.DecimalCharacters : Prop :=
  ∀ (s : State) (x : BitVec 4), x.toNat ≤ 9 →
    exec .decSign s = .next { s with dec := { s.dec with neg := true, dstate := .sign } } ∧
    exec .decPoint s = .next { s with dec := { s.dec with dstate := .point } } ∧
    (s.dec.intPart * 10 + x.toNat ≤ s.params.decIntMax →
      exec (.decDigit x) s =
        .next { s with dec := { s.dec with intPart := s.dec.intPart * 10 + x.toNat, dstate := .int } }) ∧
    (s.params.decIntMax < s.dec.intPart * 10 + x.toNat →
      exec (.decDigit x) s =
        .next ({ s with dec := { s.dec with intPart := s.dec.intPart * 10 + x.toNat } }.afterAbort .malformedValue)) ∧
    (s.dec.nf < 3 →
      exec (.decFrac x) s =
        .next { s with dec := { s.dec with frac := s.dec.frac * 10 + x.toNat, nf := s.dec.nf + 1, dstate := .frac } }) ∧
    (3 ≤ s.dec.nf → exec (.decFrac x) s = .next (s.afterAbort .malformedValue))

/-- `DEC.END`: with a fractional digit read, the correctly rounded decimal, +0.0 for zero; else `MalformedValue`
(R176, R178). What the transient registers hold after the raise is the model's choice (notes/assumptions/28.md). -/
def Obligations.DecimalEnd : Prop :=
  ∀ s : State,
    (s.dec.dstate = .frac → s.dec.intPart ≤ 2147483647 → 1 ≤ s.dec.nf → s.dec.nf ≤ 3 →
      s.dec.frac < 10 ^ s.dec.nf →
      ∃ v, exec .decEnd s = .next { s with latch := { s.latch with value := v } } ∧
        RoundsTo ((if s.dec.neg = true then -1 else 1) *
          (((s.dec.intPart * 10 ^ s.dec.nf + s.dec.frac : Nat) : ℚ) / (10 ^ s.dec.nf : ℚ))) v) ∧
    (s.dec.dstate ≠ .frac → exec .decEnd s = .next (s.afterAbort .malformedValue))

/-- `DEC.PARSE` accepts every text of the grammar and yields the correctly rounded value of the decimal it spells
(R171, R178). -/
def Obligations.DecimalAccepted : Prop :=
  ∀ (s : State) (k : Fin 4) (neg : Bool) (ip fp : List Byte),
    (s.alt.tok.get k).present = true → (s.alt.tok.get k).stop ≤ s.len → s.params.decIntMax ≤ 2147483647 →
    DecimalParts s.params.decIntMax (s.bytes (s.alt.tok.get k).start (s.alt.tok.get k).stop) neg ip fp →
    ∃ v, exec (.decParse k) s = .next { s with
        dec := { dstate := .frac, neg := neg, intPart := digitsToNat ip, frac := digitsToNat fp, nf := fp.length }
        latch := { s.latch with value := v } } ∧
      RoundsTo (decimalRat neg ip fp) v

/-- `DEC.PARSE` raises `MalformedValue` on every other text (R171, R177). What the transient registers hold after the
raise is the model's choice (notes/assumptions/28.md). -/
def Obligations.DecimalRejected : Prop :=
  ∀ (s : State) (k : Fin 4),
    (s.alt.tok.get k).present = true → (s.alt.tok.get k).start < (s.alt.tok.get k).stop →
    (s.alt.tok.get k).stop ≤ s.len →
    (∀ (neg : Bool) (ip fp : List Byte),
      ¬ DecimalParts s.params.decIntMax (s.bytes (s.alt.tok.get k).start (s.alt.tok.get k).stop) neg ip fp) →
    ∃ d, exec (.decParse k) s = .next ({ s with dec := d }.afterAbort .malformedValue)

/-- `SCL.SCALE`: the correctly rounded `raw * 10^scale` (R180). -/
def Obligations.ScaleResult : Prop :=
  ∀ (s : State) (raw e : Int), -32768 ≤ raw → raw ≤ 4294967295 → -4 ≤ e → e ≤ 5 →
    ∃ v, exec (.sclScale raw e) s = .next { s with latch := { s.latch with value := v } } ∧
      RoundsTo ((raw : ℚ) * (10 : ℚ) ^ e) v

/-- No step puts an infinity, a NaN, a subnormal or a -0.0 into a slot (R15, R170). -/
def Obligations.SlotValuesOrdinary : Prop :=
  ∀ s t : State, LegalParams s.params → s.SlotsOrdinary → step s = .next t → t.SlotsOrdinary

/-! ## The ASCII tokenizer -/

/-- `A.CHAR`: the byte stored at `len`, fed by the feed rule before the append; no other byte of the buffer changes
(R191, R194). -/
def Obligations.CharStored : Prop :=
  ∀ (s : State) (b : Byte), Memory.wf s.buf = true → s.len < s.params.bufCap → b ≠ 0x0A →
    ∃ t, exec (.aChar b) s = .next t ∧
      t = { s with buf := t.buf, len := s.len + 1, agg := { s.agg with
              crc := if s.len = 0 ∨ s.buf.read 0 ≠ 0x21 then crcByte 0xA001 s.agg.crc b else s.agg.crc } } ∧
      StoredByte s t s.len b

/-- `A.EOL`: the terminator is stored and fed, the line is dispatched whole, and the buffer is emptied (R192, R195). -/
def Obligations.EolDispatch : Prop :=
  ∀ s : State, Memory.wf s.buf = true → s.len < s.params.bufCap →
    ∃ u, u = { s with buf := u.buf, len := s.len + 1, agg := { s.agg with
            crc := if s.len = 0 ∨ s.buf.read 0 ≠ 0x21 then crcByte 0xA001 s.agg.crc 0x0A else s.agg.crc } } ∧
      StoredByte s u s.len 0x0A ∧
      (u.buf.read 0 = 0x21 → ∃ w, exec .lCksum u = .next w ∧ exec .aEol s = .next { w with len := 0 }) ∧
      (u.buf.read 0 ≠ 0x21 → ∃ v, exec .lStrip u = .next v ∧
        ((∃ i < v.alt.n, v.buf.read i = 0x28) →
          ∃ w, exec .lData v = .next w ∧ exec .aEol s = .next { w with len := 0 }) ∧
        ((∀ i < v.alt.n, v.buf.read i ≠ 0x28) →
          exec .lOther v = .next v ∧ exec .aEol s = .next { v with len := 0 }))

/-- `L.OTHER` does nothing; `L.STRIP` drops the terminator and one carriage return (R198, R199). -/
def Obligations.OtherAndStrip : Prop :=
  ∀ s : State, exec .lOther s = .next s ∧
    (1 ≤ s.len → exec .lStrip s = .next { s with alt := { s.alt with
      n := if 2 ≤ s.len ∧ s.buf.read (s.len - 2) = 0x0D then s.len - 2 else s.len - 1 } })

/-- The hex digits are 0 to 9 and the letters A to F in either case, at their values, and no other byte is one;
`HEX.PARSE` gives the number the leading hex digits after the first byte spell, modulo 2^16; `L.CKSUM` compares it,
completes the telegram, and on a mismatch reports `CrcMismatch` without an abort (R105, R113, R196, R197, R321). -/
def Obligations.ChecksumLine : Prop :=
  (∀ b : Byte,
    (0x30 ≤ b.toNat ∧ b.toNat ≤ 0x39 → (hexValue b).map BitVec.toNat = some (b.toNat - 0x30)) ∧
    (0x41 ≤ b.toNat ∧ b.toNat ≤ 0x46 → (hexValue b).map BitVec.toNat = some (b.toNat - 0x37)) ∧
    (0x61 ≤ b.toNat ∧ b.toNat ≤ 0x66 → (hexValue b).map BitVec.toNat = some (b.toNat - 0x57)) ∧
    (¬ (0x30 ≤ b.toNat ∧ b.toNat ≤ 0x39) → ¬ (0x41 ≤ b.toNat ∧ b.toNat ≤ 0x46) →
      ¬ (0x61 ≤ b.toNat ∧ b.toNat ≤ 0x66) → hexValue b = none)) ∧
  (∀ (s : State) (ds : List (BitVec 4)) (text rest : List Byte),
    s.bytes 1 s.len = text ++ rest → text.map hexValue = ds.map some →
    (∀ b, rest.head? = some b → hexValue b = none) →
    exec .hexParse s = .next { s with alt := { s.alt with
      hexAcc := BitVec.ofNat 16 (ds.foldl (fun a d => a * 16 + d.toNat) 0) } }) ∧
  ∀ s : State, ∃ h, exec .hexParse s = .next { s with alt := { s.alt with hexAcc := h } } ∧
    (s.agg.crc = h → exec .lCksum s = .next { s with
      alt := { s.alt with hexAcc := h }, agg := { s.agg with complete := true, valid := true } }) ∧
    (s.agg.crc ≠ h → exec .lCksum s = .next { s with
      alt := { s.alt with hexAcc := h }, agg := { s.agg with complete := true, valid := false }
      trace := s.trace ++ [.report .crcMismatch] })

/-- `T.SPLIT`: the tokens are the maximal runs of bytes other than the four delimiters, the first four of them in
order (R201). -/
def Obligations.TokensAreRuns : Prop :=
  ∀ s : State, s.alt.n ≤ s.len →
    ∃ t, exec .tSplit s = .next t ∧ t = { s with alt := { s.alt with tok := t.alt.tok } } ∧
      let T := fun k : Fin 4 => t.alt.tok.get k
      let delim := fun i : Nat => s.buf.read i ∈ ([0x28, 0x29, 0x2A, 0x3A] : List Byte)
      (∀ k, (T k).present = true →
        (T k).start < (T k).stop ∧ (T k).stop ≤ s.alt.n ∧
        (∀ i, (T k).start ≤ i → i < (T k).stop → ¬ delim i) ∧
        ((T k).stop < s.alt.n → delim (T k).stop) ∧ (0 < (T k).start → delim ((T k).start - 1))) ∧
      (∀ j k, j < k → (T k).present = true → (T j).present = true ∧ (T j).stop < (T k).start) ∧
      (∀ i, i < s.alt.n → ¬ delim i →
        (∃ k, (T k).present = true ∧ (T k).start ≤ i ∧ i < (T k).stop) ∨
        ((T 3).present = true ∧ (T 3).stop ≤ i))

/-- `ID.MATCH`: the first three bytes of the token are the prefix (R202). -/
def Obligations.IdMatched : Prop :=
  ∀ (s : State) (k : Fin 4) (p0 p1 p2 : Byte), s.params.dataId = [p0, p1, p2] →
    (s.alt.tok.get k).present = true → (s.alt.tok.get k).stop ≤ s.len →
    let st := (s.alt.tok.get k).start
    exec (.idMatch k) s = .next { s with alt := { s.alt with
      idMatch := decide (st + 3 ≤ (s.alt.tok.get k).stop ∧
        s.buf.read st = p0 ∧ s.buf.read (st + 1) = p1 ∧ s.buf.read (st + 2) = p2) } }

/-- `KEY.PARSE`: three dotted segments give the key; every other text only clears `key_valid` (R203). -/
def Obligations.KeyParsed : Prop :=
  ∀ (s : State) (k : Fin 4), (s.alt.tok.get k).present = true → (s.alt.tok.get k).stop ≤ s.len →
    let text := s.bytes (s.alt.tok.get k).start (s.alt.tok.get k).stop
    (∀ g0 g1 g2, text = g0 ++ [0x2E] ++ g1 ++ [0x2E] ++ g2 →
      KeySegment g0 → KeySegment g1 → KeySegment g2 →
      exec (.keyParse k) s = .next { s with alt := { s.alt with
        key := ⟨BitVec.ofNat 8 (digitsToNat g0), BitVec.ofNat 8 (digitsToNat g1), BitVec.ofNat 8 (digitsToNat g2)⟩
        keyValid := true } }) ∧
    ((∀ g0 g1 g2, text = g0 ++ [0x2E] ++ g1 ++ [0x2E] ++ g2 →
        ¬ (KeySegment g0 ∧ KeySegment g1 ∧ KeySegment g2)) →
      exec (.keyParse k) s = .next { s with alt := { s.alt with keyValid := false } })

/-- `L.DATA` on a line, however its delimiters stand, whose second token names a known register and whose third is a
well-formed value writes the correctly rounded value into the
register's slot, and into no other; nothing is reported, no byte of the buffer changes (R104, R200, R201, R292). -/
def Obligations.DataLineWrites : Prop :=
  ∀ (s : State) (ident code value : List Byte) (more : List (List Byte)) (key : Key) (slot : Fin 28) (neg : Bool)
    (ip fp : List Byte),
    s.alt.n ≤ s.len → s.params.decIntMax ≤ 2147483647 →
    lineTokens (s.bytes 0 s.alt.n) = ident :: code :: value :: more →
    s.params.dataId <+: ident → CodeText code key →
    romSlotOf s.params.romExtra key = some slot →
    DecimalParts s.params.decIntMax value neg ip fp →
    ∃ t, exec .lData s = .next t ∧
      t = { s with alt := t.alt, dec := t.dec, latch := t.latch, agg := { s.agg with slots := t.agg.slots } } ∧
      RoundsTo (decimalRat neg ip fp) (t.agg.slots.get slot) ∧
      ∀ j, j ≠ slot → t.agg.slots.get j = s.agg.slots.get j

/-- `L.DATA` ignores a line with fewer than three tokens, and one whose identifier is not the prefix, whose code is
ill-formed or unknown, whatever its value text and however its delimiters stand: no slot, no report (R164, R200, R201,
R331). -/
def Obligations.DataLineIgnored : Prop :=
  ∀ s : State, s.alt.n ≤ s.len →
    ((lineTokens (s.bytes 0 s.alt.n)).length < 3 ∨
      ∃ ident code value more, lineTokens (s.bytes 0 s.alt.n) = ident :: code :: value :: more ∧
        (¬ s.params.dataId <+: ident ∨ (∀ key, ¬ CodeText code key) ∨
          ∃ key, CodeText code key ∧ romSlotOf s.params.romExtra key = none)) →
    ∃ t, exec .lData s = .next t ∧ t = { s with alt := t.alt, latch := t.latch }

/-- `L.DATA` on a known register with a malformed value, however the line's delimiters stand: the abort sequence with
`MalformedValue` (R200, R201, R327). What the transient registers hold after the raise is the model's choice
(notes/assumptions/28.md). -/
def Obligations.DataLineMalformed : Prop :=
  ∀ (s : State) (ident code value : List Byte) (more : List (List Byte)) (key : Key) (slot : Fin 28),
    s.alt.n ≤ s.len → lineTokens (s.bytes 0 s.alt.n) = ident :: code :: value :: more →
    s.params.dataId <+: ident → CodeText code key →
    romSlotOf s.params.romExtra key = some slot →
    (∀ (neg : Bool) (ip fp : List Byte), ¬ DecimalParts s.params.decIntMax value neg ip fp) →
    ∃ a d l, exec .lData s = .next ({ s with alt := a, dec := d, latch := l }.afterAbort .malformedValue)

/-! ## The HDLC framer -/

/-- A byte for a full buffer, `A.OVF` and `H.OVF` and every append at capacity, runs the abort sequence with
`FrameTooLarge`, the byte dropped and no byte of the buffer changed; `DEC.BAD` runs it with `MalformedValue` on every
byte (R76, R177, R193, R225, R323, R329). What the transient registers hold after the raise is the model's choice
(notes/assumptions/28.md). -/
def Obligations.OverflowAndBadCharacter : Prop :=
  ∀ (s : State) (b : Byte),
    exec (.aOvf b) s = .next (s.afterAbort .frameTooLarge) ∧
    exec (.hOvf b) s = .next (s.afterAbort .frameTooLarge) ∧
    exec (.decBad b) s = .next (s.afterAbort .malformedValue) ∧
    (s.params.bufCap ≤ s.len →
      exec (.aChar b) s = .next (s.afterAbort .frameTooLarge) ∧ exec .aEol s = .next (s.afterAbort .frameTooLarge) ∧
      exec (.hData b) s = .next (s.afterAbort .frameTooLarge) ∧
      exec .hClose s = .next (s.afterAbort .frameTooLarge))

/-- `H.SKIP`, `H.TMO`, `V.OK`, `H.HDR`, `H.DONE`; `V.SIZE` with its 17-byte minimum and `V.LEN` with the 12-bit
declared length (R221, R226, R229, R230, R232, R233, R236). What the transient registers hold after the raise is the
model's choice (notes/assumptions/28.md). -/
def Obligations.FramerRegistersAndChecks : Prop :=
  ∀ (s : State) (b : Byte),
    exec (.hSkip b) s = .next s ∧
    exec .hTmo s = .next { s with len := 0, hstate := .outsideFrame } ∧
    exec .vOk s = .next { s with agg := { s.agg with valid := true } } ∧
    exec .hHdr s = .next { s with tlv := { s.tlv with cur := 17 } } ∧
    exec .hDone s = .next { s with agg := { s.agg with complete := true }, hstate := .outsideFrame, len := 0 } ∧
    (17 ≤ s.len → exec .vSize s = .next s) ∧
    (s.len < 17 → exec .vSize s = .next (s.afterAbort .frameTooSmall)) ∧
    (3 ≤ s.len → (s.buf.read 1).toNat % 16 * 256 + (s.buf.read 2).toNat = s.len - 2 → exec .vLen s = .next s) ∧
    (3 ≤ s.len → (s.buf.read 1).toNat % 16 * 256 + (s.buf.read 2).toNat ≠ s.len - 2 →
      exec .vLen s = .next (s.afterAbort .lengthMismatch))

/-- `H.OPEN`, `H.DATA` and `H.CLOSE`: where each stores, what it stores, and that no other byte changes
(R222 to R224). -/
def Obligations.FramerStores : Prop :=
  ∀ (s : State), Memory.wf s.buf = true →
    (∃ t, exec .hOpen s = .next t ∧ t = { s with buf := t.buf, len := 1, hstate := .readingFrame } ∧
      StoredByte s t 0 0x7E) ∧
    (s.len < s.params.bufCap →
      (∀ b, b ≠ 0x7E → ∃ t, exec (.hData b) s = .next t ∧ t = { s with buf := t.buf, len := s.len + 1 } ∧
        StoredByte s t s.len b) ∧
      ∃ t, exec .hClose s = .next t ∧ t = { s with buf := t.buf, len := s.len + 1, hstate := .foundFrame } ∧
        StoredByte s t s.len 0x7E)

/-- `V.FCS`: the X-25 checksum of `buf[1 .. len-4]` against the two stored bytes (R149, R231). What the transient
registers hold after the raise is the model's choice (notes/assumptions/28.md). -/
def Obligations.FrameCheck : Prop :=
  ∀ s : State, 17 ≤ s.len →
    let c := crcx ((List.range (s.len - 4)).map fun i => s.buf.read (i + 1))
    (c = storedCheck s → exec .vFcs s = .next { s with fcs := c }) ∧
    (c ≠ storedCheck s → exec .vFcs s = .next ({ s with fcs := c }.afterAbort .crcMismatch))

/-- `H.VALIDATE` always ends, in one of two ways: a complete, valid telegram, or an abort with its report last; in
both the framer is outside a frame with an empty buffer, and no byte of the queue is taken (R228, R263). -/
def Obligations.ValidateOutcome : Prop :=
  ∀ s : State, ∃ t, exec .hValidate s = .next t ∧ t.hstate = .outsideFrame ∧ t.len = 0 ∧ t.buf = s.buf ∧
    t.env = s.env ∧ t.protocol = s.protocol ∧ t.params = s.params ∧
    ((t.agg.complete = true ∧ t.agg.valid = true ∧ t.agg.crc = s.agg.crc ∧ t.agg.pubcur = s.agg.pubcur) ∨
      (t.Aborted ∧ ∃ e, t.trace.getLast? = some (.report e)))

/-- `H.VALIDATE` reports the first check that fails, size before length before checksum, then the date field and the
array's tag and count; a frame that passes and holds no structure completes a telegram that wrote no slot, its date
field skipped (R228 to R236, R331; vector V-HFR-8). `FrameWalk` says what frames with structures do. What the
transient registers hold after the event is the model's choice (notes/assumptions/28.md). -/
def Obligations.ValidateChecks : Prop :=
  ∀ s : State,
    (s.len < 17 → exec .hValidate s = .next (s.afterAbort .frameTooSmall)) ∧
    (17 ≤ s.len → (s.buf.read 1).toNat % 16 * 256 + (s.buf.read 2).toNat ≠ s.len - 2 →
      exec .hValidate s = .next (s.afterAbort .lengthMismatch)) ∧
    (17 ≤ s.len → (s.buf.read 1).toNat % 16 * 256 + (s.buf.read 2).toNat = s.len - 2 →
      crcx ((List.range (s.len - 4)).map fun i => s.buf.read (i + 1)) ≠ storedCheck s →
      ∃ c, exec .hValidate s = .next ({ s with fcs := c }.afterAbort .crcMismatch)) ∧
    (17 ≤ s.len → (s.buf.read 1).toNat % 16 * 256 + (s.buf.read 2).toNat = s.len - 2 →
      crcx ((List.range (s.len - 4)).map fun i => s.buf.read (i + 1)) = storedCheck s →
      let opened : Nat → State := fun cur => { s with fcs := storedCheck s, tlv := { s.tlv with cur := cur } }
      let arrayAt := (s.buf.read 17).toNat + 18
      (s.len = 17 → exec .hValidate s = .next ((opened 17).afterAbort .truncatedStruct)) ∧
      (18 ≤ s.len → s.len ≤ arrayAt → exec .hValidate s = .next ((opened arrayAt).afterAbort .truncatedStruct)) ∧
      (arrayAt < s.len → s.buf.read arrayAt ≠ 0x01 →
        exec .hValidate s = .next ((opened arrayAt).afterAbort .unexpectedTag)) ∧
      (arrayAt + 1 = s.len → s.buf.read arrayAt = 0x01 →
        exec .hValidate s = .next ((opened arrayAt).afterAbort .truncatedStruct))) ∧
    (17 ≤ s.len →
      (s.buf.read 1).toNat % 16 * 256 + (s.buf.read 2).toNat = s.len - 2 →
      crcx ((List.range (s.len - 4)).map fun i => s.buf.read (i + 1)) = storedCheck s →
      (s.buf.read 17).toNat + 20 ≤ s.len → s.buf.read ((s.buf.read 17).toNat + 18) = 0x01 →
      s.buf.read ((s.buf.read 17).toNat + 19) = 0x00 →
      exec .hValidate s = .next { s with
        fcs := storedCheck s
        tlv := { s.tlv with cur := (s.buf.read 17).toNat + 20, remStructs := 0 }
        agg := { s.agg with complete := true, valid := true }
        hstate := .outsideFrame, len := 0 })

/-- The whole structural decode: on a frame that passes its checks and opens an array, `H.VALIDATE` ends exactly
where the walk of its structures ends, whatever their number and contents: `STRUCT`, the elements the decoder reads
while `rem > 0`, `COMMIT`, the next structure, and both flags set with the committed slots kept; or the first
error's abort (R228, R235, R236, R252, R253, R262). What the transient registers hold after the event is the model's
choice (notes/assumptions/28.md). -/
def Obligations.FrameWalk : Prop :=
  ∀ s : State, 17 ≤ s.len →
    (s.buf.read 1).toNat % 16 * 256 + (s.buf.read 2).toNat = s.len - 2 →
    crcx ((List.range (s.len - 4)).map fun i => s.buf.read (i + 1)) = storedCheck s →
    (s.buf.read 17).toNat + 20 ≤ s.len → s.buf.read ((s.buf.read 17).toNat + 18) = 0x01 →
    ∀ t, exec .hValidate s = .next t ↔ Walk .structureStart { s with
      fcs := storedCheck s
      tlv := { s.tlv with cur := (s.buf.read 17).toNat + 20
                          remStructs := s.buf.read ((s.buf.read 17).toNat + 19) }
      agg := { s.agg with valid := true } } t

/-! ## The TLV walker -/

/-- `H.DATE`, and the required tags: `ARRAY` at the array position and `STRUCT` at a structure start make the overrun
check, the tag comparison and the second overrun check in that order; `STRUCT` clears the holders (R234, R235, R252,
R331). What the transient registers hold after the raise is the model's choice (notes/assumptions/28.md). -/
def Obligations.DateAndRequiredTags : Prop :=
  ∀ (s : State) (dl n cnt : Byte),
    (s.len < s.tlv.cur + 1 →
      exec (.hDate dl) s = .next (s.afterAbort .truncatedStruct) ∧
      exec (.array n) s = .next (s.afterAbort .truncatedStruct) ∧
      exec (.struct cnt) s = .next (s.afterAbort .truncatedStruct)) ∧
    (s.tlv.cur + 1 ≤ s.len →
      exec (.hDate dl) s = .next { s with tlv := { s.tlv with cur := s.tlv.cur + 1 + dl.toNat } } ∧
      (s.buf.read s.tlv.cur ≠ 0x01 → exec (.array n) s = .next (s.afterAbort .unexpectedTag)) ∧
      (s.buf.read s.tlv.cur ≠ 0x02 → exec (.struct cnt) s = .next (s.afterAbort .unexpectedTag))) ∧
    (s.tlv.cur + 1 = s.len →
      (s.buf.read s.tlv.cur = 0x01 → exec (.array n) s = .next (s.afterAbort .truncatedStruct)) ∧
      (s.buf.read s.tlv.cur = 0x02 → exec (.struct cnt) s = .next (s.afterAbort .truncatedStruct))) ∧
    (s.tlv.cur + 2 ≤ s.len →
      (s.buf.read s.tlv.cur = 0x01 →
        exec (.array n) s = .next { s with tlv := { s.tlv with remStructs := n, cur := s.tlv.cur + 2 } }) ∧
      (s.buf.read s.tlv.cur = 0x02 →
        exec (.struct cnt) s = .next { s with
          alt := { s.alt with key := ⟨0, 0, 0⟩ }
          tlv := { cur := s.tlv.cur + 2, remStructs := s.tlv.remStructs, rem := cnt.toNat, codeFound := false,
                   scale := 0, scaleExplicit := false, unit := 0, uval := 0, uvalPresent := false, sval := 0 } }))

/-- The element operations on an element that lies in the frame (R254 to R261). -/
def Obligations.ElementResults : Prop :=
  ∀ s : State, 1 ≤ s.tlv.rem →
    (∀ cnt : Byte, s.tlv.cur + 2 ≤ s.len → exec (.structN cnt) s = .next { s with
      tlv := { s.tlv with rem := s.tlv.rem - 1 + cnt.toNat, cur := s.tlv.cur + 2 } }) ∧
    (∀ e : Byte, s.tlv.cur + 2 ≤ s.len → exec (.scale e) s = .next { s with
      tlv := { s.tlv with scale := e, scaleExplicit := true, cur := s.tlv.cur + 2, rem := s.tlv.rem - 1 } }) ∧
    (∀ u : Byte, s.tlv.cur + 2 ≤ s.len → exec (.unit u) s = .next { s with
      tlv := { s.tlv with
        unit := u, cur := s.tlv.cur + 2, rem := s.tlv.rem - 1
        scale := if s.tlv.scaleExplicit = false ∧ u ≠ s.params.unitAmpere ∧ u ≠ s.params.unitVolt
          then BitVec.ofInt 8 (-3) else s.tlv.scale } }) ∧
    (∀ v : Word32, s.tlv.cur + 5 ≤ s.len → exec (.u32 v) s = .next { s with
      tlv := { s.tlv with uval := v, uvalPresent := true, cur := s.tlv.cur + 5, rem := s.tlv.rem - 1 } }) ∧
    (∀ v : Half, s.tlv.cur + 3 ≤ s.len → exec (.i16 v) s = .next { s with
      tlv := { s.tlv with sval := BitVec.ofInt 32 v.toInt, cur := s.tlv.cur + 3, rem := s.tlv.rem - 1 } }) ∧
    (∀ v : Half, s.tlv.cur + 3 ≤ s.len → exec (.u16 v) s = .next { s with
      tlv := { s.tlv with
        sval := if s.params.u16WrapsSigned = true then BitVec.ofInt 32 v.toInt else BitVec.ofNat 32 v.toNat
        cur := s.tlv.cur + 3, rem := s.tlv.rem - 1 } }) ∧
    (∀ tag : Byte, exec (.unk tag) s = .next { s with
      tlv := { s.tlv with cur := s.tlv.cur + 1, rem := s.tlv.rem - 1 }
      trace := s.trace ++ [.report .unexpectedTag] })

/-- `OCTS`: a six-byte string is the register code, its bytes 2, 3 and 4; any other is skipped; both must lie in the
frame (R111, R257). What the transient registers hold after the raise is the model's choice (notes/assumptions/28.md). -/
def Obligations.OctetString : Prop :=
  ∀ (s : State) (ls : Byte) (str : List Byte), 1 ≤ s.tlv.rem → str.length = ls.toNat →
    (∀ s0 s1 s2 s3 s4 s5 : Byte, str = [s0, s1, s2, s3, s4, s5] → s.tlv.cur + 8 ≤ s.len →
      exec (.octs ls str) s = .next { s with
        alt := { s.alt with key := ⟨s2, s3, s4⟩ }
        tlv := { s.tlv with codeFound := true, cur := s.tlv.cur + 8, rem := s.tlv.rem - 1 } }) ∧
    (str.length ≠ 6 → s.tlv.cur + 2 + str.length ≤ s.len →
      exec (.octs ls str) s = .next { s with
        tlv := { s.tlv with cur := s.tlv.cur + 2 + str.length, rem := s.tlv.rem - 1 } }) ∧
    (s.len < s.tlv.cur + 2 + str.length → exec (.octs ls str) s = .next (s.afterAbort .truncatedStruct))

/-- An element the frame cuts off: every element operation raises `TruncatedStruct` and writes nothing else (R251,
R325, R329). What the transient registers hold after the raise is the model's choice (notes/assumptions/28.md). -/
def Obligations.TruncatedElements : Prop :=
  ∀ s : State,
    (s.len < s.tlv.cur + 2 → ∀ b : Byte,
      exec (.structN b) s = .next (s.afterAbort .truncatedStruct) ∧
      exec (.scale b) s = .next (s.afterAbort .truncatedStruct) ∧
      exec (.unit b) s = .next (s.afterAbort .truncatedStruct)) ∧
    (s.len < s.tlv.cur + 3 → ∀ v : Half,
      exec (.i16 v) s = .next (s.afterAbort .truncatedStruct) ∧
      exec (.u16 v) s = .next (s.afterAbort .truncatedStruct)) ∧
    (s.len < s.tlv.cur + 5 → ∀ v : Word32, exec (.u32 v) s = .next (s.afterAbort .truncatedStruct))

/-- `COMMIT`: nothing without a code or on a ROM miss; on a hit the scaled raw value, the unsigned one preferred, goes
into the slot; an exponent outside -4..5 is `MalformedValue` then and only then (R262). What the transient registers
hold after the raise is the model's choice (notes/assumptions/28.md). -/
def Obligations.CommitResult : Prop :=
  ∀ s : State, s.tlv.remStructs ≠ 0 →
    let next : Tlv := { s.tlv with remStructs := s.tlv.remStructs - 1 }
    (s.tlv.codeFound = false → exec .commit s = .next { s with tlv := next }) ∧
    (s.tlv.codeFound = true → romSlotOf s.params.romExtra s.alt.key = none →
      exec .commit s = .next { s with tlv := next, latch := { s.latch with romHit := false } }) ∧
    (∀ slot, s.tlv.codeFound = true → romSlotOf s.params.romExtra s.alt.key = some slot →
      (-4 ≤ s.tlv.scale.toInt ∧ s.tlv.scale.toInt ≤ 5 →
        ∃ v, exec .commit s = .next { s with
            tlv := next, latch := { romHit := true, romSlot := slot, value := v }
            agg := { s.agg with slots := s.agg.slots.set slot.val v slot.isLt } } ∧
          RoundsTo (((if s.tlv.uvalPresent = true then (s.tlv.uval.toNat : Int) else s.tlv.sval.toInt : Int) : ℚ) *
            (10 : ℚ) ^ s.tlv.scale.toInt) v) ∧
      (¬ (-4 ≤ s.tlv.scale.toInt ∧ s.tlv.scale.toInt ≤ 5) →
        exec .commit s = .next
          ({ s with latch := { s.latch with romHit := true, romSlot := slot } }.afterAbort .malformedValue)))

/-! ## Decoding and sequencing -/

/-- What the machine does at each position of file 30 is the operation the decoder gives there: a stream byte, a
completed line, a value token's byte and its end, the identifier against the default prefix, a ROM key, the date
length, an element and the two required tags (R103, R104, R106, R162, R177, R202, R234, R253). The command port is
`StepRunsDecoded`'s. What the transient registers hold after the raise is the model's choice
(notes/assumptions/28.md). -/
def Obligations.SequencingRunsDecoded : Prop :=
  ∀ s : State,
    (∀ (b : Byte) (i : Instr), decode (.asciiByte (decide (s.params.bufCap ≤ s.len))) [b] = .ok (i, []) →
      (asciiByte b s).outcome = exec i s) ∧
    (∀ (b : Byte) (i : Instr), decode (.hdlcByte s.hstate (decide (s.params.bufCap ≤ s.len))) [b] = .ok (i, []) →
      (hdlcByte b s).outcome = exec i s) ∧
    (∀ (b : Byte) (i : Instr), decode (.tokenByte s.dec.dstate) [b] = .ok (i, []) →
      (decStep b s).outcome = exec i s) ∧
    (∀ (i : Instr) (rest : List Byte), decode .element (s.bytes s.tlv.cur s.len) = .ok (i, rest) →
      (elementStep s).outcome = exec i s) ∧
    (∀ e, decode .element (s.bytes s.tlv.cur s.len) = .error e →
      (elementStep s).outcome = .next (s.afterAbort .truncatedStruct)) ∧
    (∀ (i : Instr) (rest : List Byte), decode .structTag (s.bytes s.tlv.cur s.len) = .ok (i, rest) →
      (doStruct (s.elemByte 1) s).outcome = exec i s) ∧
    (∀ (i : Instr) (rest : List Byte), decode .arrayTag (s.bytes s.tlv.cur s.len) = .ok (i, rest) →
      (doArray (s.elemByte 1) s).outcome = exec i s) ∧
    (∀ (i : Instr) (rest : List Byte), decode .dateLength (s.bytes s.tlv.cur s.len) = .ok (i, rest) →
      (doHDate (s.elemByte 0) s).outcome = exec i s) ∧
    (∀ (i : Instr) (rest : List Byte), decode .line (s.bytes 0 s.len) = .ok (i, rest) →
      (i = .lCksum ∧ (lineDispatch s).outcome = exec i s) ∨
      ((i = .lData ∨ i = .lOther) ∧ ∃ v, exec .lStrip s = .next v ∧ (lineDispatch s).outcome = exec i v)) ∧
    (∀ i : Instr, decode (.tokenByte s.dec.dstate) [] = .ok (i, []) →
      ((decRun [] s).andThen doDecEnd).outcome = exec i s) ∧
    (∀ k : Fin 4, s.params.dataId = Params.default.dataId →
      (s.alt.tok.get k).present = true → (s.alt.tok.get k).stop ≤ s.len →
      let text := s.bytes (s.alt.tok.get k).start (s.alt.tok.get k).stop
      (∀ (i : Instr) (rest : List Byte), decode (.dataId k) text = .ok (i, rest) →
        exec i s = .next { s with alt := { s.alt with idMatch := true } }) ∧
      (∀ e, decode (.dataId k) text = .error e →
        exec (.idMatch k) s = .next { s with alt := { s.alt with idMatch := false } })) ∧
    (∀ (key : Key) (i : Instr) (rest : List Byte), decode .romKey [key.c, key.d, key.e] = .ok (i, rest) →
      exec (.romLkp key) s = exec i s)

/-- Decode and encode agree: every well-formed operation that a pattern selects is read back from its bytes, with
every operand, at every position it stands (R100 to R109). -/
def Obligations.DecodeOfEncode : Prop :=
  ∀ (i : Instr) (ctx : Ctx) (rest : List Byte), i.wf = true → i.appearsIn ctx = true →
    ∃ bs, encode i = some bs ∧ decode ctx (bs ++ rest) = .ok (i, rest)

/-- The other way round: what is decoded, when a pattern selects it, is encoded by exactly the bytes read, and it is
well-formed at that position (R100 to R109). -/
def Obligations.EncodeOfDecode : Prop :=
  ∀ (ctx : Ctx) (bytes : List Byte) (i : Instr) (rest : List Byte), decode ctx bytes = .ok (i, rest) →
    i.wf = true ∧ ∀ bs, encode i = some bs → i.appearsIn ctx = true ∧ bytes = bs ++ rest

/-- Words written out from the encoding tables decode to the operations they stand for; every tag but seven is `UNK` at
an element position, 249 of them, and takes its own byte only (R101, R103, R106, R108, R109, R117, R261). -/
def Obligations.WordsDecode : Prop :=
  decode .command [0b00000001] = .ok (.invoke, []) ∧
  decode (.asciiByte false) [0b00001010] = .ok (.aEol, []) ∧
  decode (.hdlcByte .readingFrame false) [0b01111110] = .ok (.hClose, []) ∧
  decode (.tokenByte .int) [0b00101110] = .ok (.decPoint, []) ∧
  decode .romKey [0b00100000, 0b00000111, 0b00000000] = .ok (.romRowVoltageL1, []) ∧
  decode .arrayTag [0b00000001, 0b00000010] = .ok (.array 2, []) ∧
  decode .element [0b00000110, 0x00, 0x00, 0x04, 0x8C] = .ok (.u32 1164, []) ∧
  decode .element [0b00010000, 0xFF, 0xF1] = .ok (.i16 (BitVec.ofInt 16 (-15)), []) ∧
  decode .element [0b00001111, 0xFF, 0x16] = .ok (.scale (BitVec.ofInt 8 (-1)), [0x16]) ∧
  (∀ (t : Byte) (rest : List Byte), t ∉ ([0x02, 0x06, 0x09, 0x0F, 0x10, 0x12, 0x16] : List Byte) →
    decode .element (t :: rest) = .ok (.unk t, rest)) ∧
  ((List.range 256).filter fun n => decide (tagSel (BitVec.ofNat 8 n) = .unk)).length = 249

/-! ## The buffer -/

/-- Every operation keeps the buffer's canonical form and bounds: no write lands outside the capacity (R26, R27,
R76). -/
def Obligations.BufferKept : Prop :=
  ∀ (i : Instr) (s t : State), 1 ≤ s.params.bufCap → s.BufferOk → exec i s = .next t → t.BufferOk

/-- Where an operation's own precondition fails, or a read has no defined byte, it stops by name. That it stops, and
does not go on with a value, is the model's choice (notes/assumptions/6.md, 7.md); the spec evaluates none of these
(R78, R181, R199, R293). -/
def Obligations.UndefinedUsesStop : Prop :=
  ∀ (s : State) (k : Fin 4) (raw e : Int),
    (s.agg.pubcur = 0 ∨ 28 < s.agg.pubcur → exec .aggDlv s = .fault .noSlotToDeliver) ∧
    (e < -4 ∨ 5 < e → exec (.sclScale raw e) s = .fault .noPowerOfTen) ∧
    (s.len = 0 → exec .lStrip s = .fault .noCompletedLine) ∧
    (s.len < s.alt.n → exec .tSplit s = .fault .bufReadPastLen) ∧
    (s.len < 3 → exec .vLen s = .fault .bufReadPastLen ∧ exec .vFcs s = .fault .bufReadPastLen) ∧
    ((s.alt.tok.get k).present = true → s.len < (s.alt.tok.get k).stop →
      exec (.idMatch k) s = .fault .bufReadPastLen ∧ exec (.keyParse k) s = .fault .bufReadPastLen ∧
      exec (.decParse k) s = .fault .bufReadPastLen)
end

