-- ==== Sys2Proof/Laws/Memory.lean ====
section
/-! SUPPORT. The laws of the frame buffer's storage: read after write, and the canonical form every write keeps. -/

namespace Sys2Proof.Machine

/-- Nothing is listed below the bound of a canonical list. -/
theorem Memory.read_below_of_wfFrom {m : Memory} {lo a : Nat} (h : Memory.wfFrom lo m = true) (ha : a < lo) :
    Memory.read m a = unlistedByte := by
  induction m generalizing lo with
  | nil => rfl
  | cons c m ih =>
    obtain ⟨k, b⟩ := c
    simp only [Memory.wfFrom, Bool.and_eq_true, decide_eq_true_eq] at h
    have hk : k ≠ a := by omega
    simp only [Memory.read, hk, if_false]
    exact ih h.2 (by omega)

/-- A canonical list is canonical from every smaller bound. -/
theorem Memory.wfFrom_mono {m : Memory} {lo lo' : Nat} (h : Memory.wfFrom lo m = true) (hl : lo' ≤ lo) :
    Memory.wfFrom lo' m = true := by
  cases m with
  | nil => rfl
  | cons c m =>
    obtain ⟨k, b⟩ := c
    simp only [Memory.wfFrom, Bool.and_eq_true, decide_eq_true_eq] at h ⊢
    exact ⟨⟨by omega, h.1.2⟩, h.2⟩

/-- The byte just written reads back. -/
theorem Memory.read_write_same_from {m : Memory} {lo : Nat} (h : Memory.wfFrom lo m = true) (a : Nat) (v : Byte) :
    Memory.read (Memory.write m a v) a = v := by
  induction m generalizing lo with
  | nil =>
    by_cases hv : v = unlistedByte
    · simp [Memory.write, Memory.read, hv]
    · simp [Memory.write, Memory.read, hv]
  | cons c m ih =>
    obtain ⟨k, b⟩ := c
    have h0 := h
    simp only [Memory.wfFrom, Bool.and_eq_true, decide_eq_true_eq] at h
    unfold Memory.write
    by_cases h1 : a < k
    · by_cases hv : v = unlistedByte
      · simp only [h1, hv, if_true]
        exact Memory.read_below_of_wfFrom (lo := k)
          (by simp only [Memory.wfFrom, Bool.and_eq_true, decide_eq_true_eq]; exact ⟨⟨le_refl _, h.1.2⟩, h.2⟩) h1
      · simp [h1, hv, Memory.read]
    · by_cases h2 : a = k
      · by_cases hv : v = unlistedByte
        · simp only [h2, hv, lt_irrefl, if_false, if_true]
          exact Memory.read_below_of_wfFrom h.2 (Nat.lt_succ_self k)
        · simp [h2, hv, Memory.read]
      · have h3 : k ≠ a := fun e => h2 e.symm
        simp only [h1, h2, if_false, Memory.read, h3]
        exact ih h.2

/-- Every other byte reads as before. -/
theorem Memory.read_write_other (m : Memory) {a a' : Nat} (v : Byte) (hne : a' ≠ a) :
    Memory.read (Memory.write m a v) a' = Memory.read m a' := by
  induction m with
  | nil =>
    by_cases hv : v = unlistedByte
    · simp [Memory.write, Memory.read, hv]
    · simpa [Memory.write, Memory.read, hv] using fun e : a = a' => absurd e.symm hne
  | cons c m ih =>
    obtain ⟨k, b⟩ := c
    have hne' : a ≠ a' := fun e => hne e.symm
    unfold Memory.write
    by_cases h1 : a < k
    · by_cases hv : v = unlistedByte
      · simp [h1, hv]
      · simp [h1, hv, Memory.read, hne']
    · by_cases h2 : a = k
      · subst h2
        by_cases hv : v = unlistedByte
        · simp [hv, Memory.read, hne']
        · simp [hv, Memory.read, hne']
      · simp only [h1, h2, if_false, Memory.read]
        by_cases h3 : k = a'
        · simp [h3]
        · simp [h3, ih]

/-- A write keeps the canonical form above its bound. -/
theorem Memory.wfFrom_write {m : Memory} {lo a : Nat} (v : Byte) (h : Memory.wfFrom lo m = true) (ha : lo ≤ a) :
    Memory.wfFrom lo (Memory.write m a v) = true := by
  induction m generalizing lo with
  | nil =>
    by_cases hv : v = unlistedByte
    · simp [Memory.write, Memory.wfFrom, hv]
    · simp [Memory.write, Memory.wfFrom, hv, ha]
  | cons c m ih =>
    obtain ⟨k, b⟩ := c
    have h0 := h
    simp only [Memory.wfFrom, Bool.and_eq_true, decide_eq_true_eq] at h
    unfold Memory.write
    by_cases h1 : a < k
    · by_cases hv : v = unlistedByte
      · simp only [h1, hv, if_true]; exact h0
      · simp only [h1, hv, if_true, if_false, Memory.wfFrom, Bool.and_eq_true, decide_eq_true_eq]
        exact ⟨⟨ha, hv⟩, ⟨by omega, h.1.2⟩, h.2⟩
    · by_cases h2 : a = k
      · by_cases hv : v = unlistedByte
        · simp only [h2, hv, lt_irrefl, if_false, if_true]
          exact Memory.wfFrom_mono h.2 (by omega)
        · simp only [h2, hv, lt_irrefl, if_false, if_true, Memory.wfFrom, Bool.and_eq_true, decide_eq_true_eq]
          exact ⟨⟨by omega, hv⟩, h.2⟩
      · simp only [h1, h2, if_false, Memory.wfFrom, Bool.and_eq_true, decide_eq_true_eq]
        exact ⟨h.1, ih h.2 (by omega)⟩

/-- The byte just written reads back. -/
theorem Memory.read_write_same {m : Memory} (h : Memory.wf m = true) (a : Nat) (v : Byte) :
    Memory.read (Memory.write m a v) a = v := Memory.read_write_same_from h a v

/-- A write keeps the canonical form. -/
theorem Memory.wf_write {m : Memory} (a : Nat) (v : Byte) (h : Memory.wf m = true) :
    Memory.wf (Memory.write m a v) = true := Memory.wfFrom_write v h (Nat.zero_le a)

/-- A run of writes keeps the canonical form. -/
theorem Memory.wf_writeRun {m : Memory} (a : Nat) (bs : List Byte) (h : Memory.wf m = true) :
    Memory.wf (Memory.writeRun m a bs) = true := by
  induction bs generalizing m a with
  | nil => exact h
  | cons b bs ih => exact ih (a + 1) (Memory.wf_write a b h)

/-- A run of writes leaves every byte outside it alone. -/
theorem Memory.read_writeRun_other (m : Memory) {a a' : Nat} (bs : List Byte) (h : a' < a ∨ a + bs.length ≤ a') :
    Memory.read (Memory.writeRun m a bs) a' = Memory.read m a' := by
  induction bs generalizing m a with
  | nil => rfl
  | cons b bs ih =>
    simp only [List.length_cons] at h
    simp only [Memory.writeRun]
    rw [ih (m.write a b) (by omega), Memory.read_write_other m b (by omega)]

/-- A write inside the capacity keeps every cell inside it. -/
theorem Memory.below_write {m : Memory} {a cap : Nat} (v : Byte) (h : Memory.below m cap = true) (ha : a < cap) :
    Memory.below (Memory.write m a v) cap = true := by
  induction m with
  | nil =>
    by_cases hv : v = unlistedByte
    · simp [Memory.write, Memory.below, hv]
    · simp [Memory.write, Memory.below, hv, ha]
  | cons c m ih =>
    obtain ⟨k, b⟩ := c
    have hm : Memory.below m cap = true := by
      simp only [Memory.below, List.all_cons, Bool.and_eq_true] at h; exact h.2
    have hk : k < cap := by
      simp only [Memory.below, List.all_cons, Bool.and_eq_true, decide_eq_true_eq] at h; exact h.1
    have cons_below {n : Memory} {j : Nat} {w : Byte} (hj : j < cap) (hn : Memory.below n cap = true) :
        Memory.below ((j, w) :: n) cap = true := by
      simp only [Memory.below, List.all_cons, Bool.and_eq_true, decide_eq_true_eq]; exact ⟨hj, hn⟩
    unfold Memory.write
    by_cases h1 : a < k
    · by_cases hv : v = unlistedByte
      · simp only [h1, hv, if_true]; exact h
      · simp only [h1, hv, if_true, if_false]; exact cons_below ha h
    · by_cases h2 : a = k
      · by_cases hv : v = unlistedByte
        · simp only [h2, hv, lt_irrefl, if_false, if_true]; exact hm
        · simp only [h2, hv, lt_irrefl, if_false, if_true]; exact cons_below hk hm
      · simp only [h1, h2, if_false]; exact cons_below hk (ih hm)

/-- Two canonical lists that read alike are equal. -/
theorem Memory.ext_of_read {m m' : Memory} {lo : Nat} (h : Memory.wfFrom lo m = true)
    (h' : Memory.wfFrom lo m' = true) (hr : ∀ a, Memory.read m a = Memory.read m' a) : m = m' := by
  induction m generalizing m' lo with
  | nil =>
    cases m' with
    | nil => rfl
    | cons c m' =>
      obtain ⟨k, b⟩ := c
      simp only [Memory.wfFrom, Bool.and_eq_true, decide_eq_true_eq] at h'
      have := hr k
      simp only [Memory.read, if_true] at this
      exact absurd this.symm h'.1.2
  | cons c m ih =>
    obtain ⟨k, b⟩ := c
    have h0 := h
    simp only [Memory.wfFrom, Bool.and_eq_true, decide_eq_true_eq] at h
    cases m' with
    | nil =>
      have := hr k
      simp only [Memory.read, if_true] at this
      exact absurd this h.1.2
    | cons c' m' =>
      obtain ⟨k', b'⟩ := c'
      simp only [Memory.wfFrom, Bool.and_eq_true, decide_eq_true_eq] at h'
      have hk : k = k' := by
        rcases Nat.lt_trichotomy k k' with hlt | heq | hgt
        · have := hr k
          have hne : k' ≠ k := by omega
          simp only [Memory.read, if_true, hne, if_false] at this
          rw [Memory.read_below_of_wfFrom h'.2 (by omega)] at this
          exact absurd this h.1.2
        · exact heq
        · have := hr k'
          have hne : k ≠ k' := by omega
          simp only [Memory.read, if_true, hne, if_false] at this
          rw [Memory.read_below_of_wfFrom h.2 (by omega)] at this
          exact absurd this.symm h'.1.2
      subst hk
      have hb : b = b' := by
        have := hr k
        simpa only [Memory.read, if_true] using this
      subst hb
      have : m = m' := by
        refine ih h.2 h'.2 fun a => ?_
        by_cases ha : k = a
        · subst ha
          rw [Memory.read_below_of_wfFrom h.2 (by omega), Memory.read_below_of_wfFrom h'.2 (by omega)]
        · have := hr a
          simpa only [Memory.read, ha, if_false] using this
      rw [this]

/-- The buffer after reset has the canonical form. -/
theorem Memory.wf_reset : Memory.wf State.reset.buf = true := by decide

/-- Loading a buffer, as `withFetchWord` does, keeps the canonical form. -/
theorem State.wf_loadBuffer {s : State} (bs : List Byte) (h : Memory.wf s.buf = true) :
    Memory.wf (s.loadBuffer bs).buf = true := Memory.wf_writeRun 0 bs h

end Sys2Proof.Machine
end

