-- ==== Sys2Proof/Laws/State.lean ====
section
/-! SUPPORT. What each named update leaves in each field of the state. -/

namespace Sys2Proof.Machine

/-! `State.emit`. -/

@[simp] theorem State.emit_params (s : State) (ev : Event) : (s.emit ev).params = s.params := rfl
@[simp] theorem State.emit_live (s : State) (ev : Event) : (s.emit ev).live = s.live := rfl
@[simp] theorem State.emit_protocol (s : State) (ev : Event) : (s.emit ev).protocol = s.protocol := rfl
@[simp] theorem State.emit_agg (s : State) (ev : Event) : (s.emit ev).agg = s.agg := rfl
@[simp] theorem State.emit_buf (s : State) (ev : Event) : (s.emit ev).buf = s.buf := rfl
@[simp] theorem State.emit_len (s : State) (ev : Event) : (s.emit ev).len = s.len := rfl
@[simp] theorem State.emit_hstate (s : State) (ev : Event) : (s.emit ev).hstate = s.hstate := rfl
@[simp] theorem State.emit_alt (s : State) (ev : Event) : (s.emit ev).alt = s.alt := rfl
@[simp] theorem State.emit_dec (s : State) (ev : Event) : (s.emit ev).dec = s.dec := rfl
@[simp] theorem State.emit_fcs (s : State) (ev : Event) : (s.emit ev).fcs = s.fcs := rfl
@[simp] theorem State.emit_tlv (s : State) (ev : Event) : (s.emit ev).tlv = s.tlv := rfl
@[simp] theorem State.emit_latch (s : State) (ev : Event) : (s.emit ev).latch = s.latch := rfl
@[simp] theorem State.emit_env (s : State) (ev : Event) : (s.emit ev).env = s.env := rfl
@[simp] theorem State.emit_trace (s : State) (ev : Event) : (s.emit ev).trace = s.trace ++ [ev] := rfl

/-! `State.report`. -/

@[simp] theorem State.report_params (s : State) (e : ErrorCode) : (s.report e).params = s.params := rfl
@[simp] theorem State.report_live (s : State) (e : ErrorCode) : (s.report e).live = s.live := rfl
@[simp] theorem State.report_protocol (s : State) (e : ErrorCode) : (s.report e).protocol = s.protocol := rfl
@[simp] theorem State.report_agg (s : State) (e : ErrorCode) : (s.report e).agg = s.agg := rfl
@[simp] theorem State.report_buf (s : State) (e : ErrorCode) : (s.report e).buf = s.buf := rfl
@[simp] theorem State.report_len (s : State) (e : ErrorCode) : (s.report e).len = s.len := rfl
@[simp] theorem State.report_hstate (s : State) (e : ErrorCode) : (s.report e).hstate = s.hstate := rfl
@[simp] theorem State.report_alt (s : State) (e : ErrorCode) : (s.report e).alt = s.alt := rfl
@[simp] theorem State.report_dec (s : State) (e : ErrorCode) : (s.report e).dec = s.dec := rfl
@[simp] theorem State.report_fcs (s : State) (e : ErrorCode) : (s.report e).fcs = s.fcs := rfl
@[simp] theorem State.report_tlv (s : State) (e : ErrorCode) : (s.report e).tlv = s.tlv := rfl
@[simp] theorem State.report_latch (s : State) (e : ErrorCode) : (s.report e).latch = s.latch := rfl
@[simp] theorem State.report_env (s : State) (e : ErrorCode) : (s.report e).env = s.env := rfl
@[simp] theorem State.report_trace (s : State) (e : ErrorCode) : (s.report e).trace = s.trace ++ [.report e] := rfl

/-! `State.setLen`. -/

@[simp] theorem State.setLen_params (s : State) (n : Nat) : (s.setLen n).params = s.params := rfl
@[simp] theorem State.setLen_live (s : State) (n : Nat) : (s.setLen n).live = s.live := rfl
@[simp] theorem State.setLen_protocol (s : State) (n : Nat) : (s.setLen n).protocol = s.protocol := rfl
@[simp] theorem State.setLen_agg (s : State) (n : Nat) : (s.setLen n).agg = s.agg := rfl
@[simp] theorem State.setLen_buf (s : State) (n : Nat) : (s.setLen n).buf = s.buf := rfl
@[simp] theorem State.setLen_len (s : State) (n : Nat) : (s.setLen n).len = n := rfl
@[simp] theorem State.setLen_hstate (s : State) (n : Nat) : (s.setLen n).hstate = s.hstate := rfl
@[simp] theorem State.setLen_alt (s : State) (n : Nat) : (s.setLen n).alt = s.alt := rfl
@[simp] theorem State.setLen_dec (s : State) (n : Nat) : (s.setLen n).dec = s.dec := rfl
@[simp] theorem State.setLen_fcs (s : State) (n : Nat) : (s.setLen n).fcs = s.fcs := rfl
@[simp] theorem State.setLen_tlv (s : State) (n : Nat) : (s.setLen n).tlv = s.tlv := rfl
@[simp] theorem State.setLen_latch (s : State) (n : Nat) : (s.setLen n).latch = s.latch := rfl
@[simp] theorem State.setLen_env (s : State) (n : Nat) : (s.setLen n).env = s.env := rfl
@[simp] theorem State.setLen_trace (s : State) (n : Nat) : (s.setLen n).trace = s.trace := rfl

/-! `State.setHState`. -/

@[simp] theorem State.setHState_params (s : State) (h : HState) : (s.setHState h).params = s.params := rfl
@[simp] theorem State.setHState_live (s : State) (h : HState) : (s.setHState h).live = s.live := rfl
@[simp] theorem State.setHState_protocol (s : State) (h : HState) : (s.setHState h).protocol = s.protocol := rfl
@[simp] theorem State.setHState_agg (s : State) (h : HState) : (s.setHState h).agg = s.agg := rfl
@[simp] theorem State.setHState_buf (s : State) (h : HState) : (s.setHState h).buf = s.buf := rfl
@[simp] theorem State.setHState_len (s : State) (h : HState) : (s.setHState h).len = s.len := rfl
@[simp] theorem State.setHState_hstate (s : State) (h : HState) : (s.setHState h).hstate = h := rfl
@[simp] theorem State.setHState_alt (s : State) (h : HState) : (s.setHState h).alt = s.alt := rfl
@[simp] theorem State.setHState_dec (s : State) (h : HState) : (s.setHState h).dec = s.dec := rfl
@[simp] theorem State.setHState_fcs (s : State) (h : HState) : (s.setHState h).fcs = s.fcs := rfl
@[simp] theorem State.setHState_tlv (s : State) (h : HState) : (s.setHState h).tlv = s.tlv := rfl
@[simp] theorem State.setHState_latch (s : State) (h : HState) : (s.setHState h).latch = s.latch := rfl
@[simp] theorem State.setHState_env (s : State) (h : HState) : (s.setHState h).env = s.env := rfl
@[simp] theorem State.setHState_trace (s : State) (h : HState) : (s.setHState h).trace = s.trace := rfl

/-! `State.setCrc`. -/

@[simp] theorem State.setCrc_params (s : State) (c : Half) : (s.setCrc c).params = s.params := rfl
@[simp] theorem State.setCrc_live (s : State) (c : Half) : (s.setCrc c).live = s.live := rfl
@[simp] theorem State.setCrc_protocol (s : State) (c : Half) : (s.setCrc c).protocol = s.protocol := rfl
@[simp] theorem State.setCrc_agg (s : State) (c : Half) : (s.setCrc c).agg = { s.agg with crc := c } := rfl
@[simp] theorem State.setCrc_buf (s : State) (c : Half) : (s.setCrc c).buf = s.buf := rfl
@[simp] theorem State.setCrc_len (s : State) (c : Half) : (s.setCrc c).len = s.len := rfl
@[simp] theorem State.setCrc_hstate (s : State) (c : Half) : (s.setCrc c).hstate = s.hstate := rfl
@[simp] theorem State.setCrc_alt (s : State) (c : Half) : (s.setCrc c).alt = s.alt := rfl
@[simp] theorem State.setCrc_dec (s : State) (c : Half) : (s.setCrc c).dec = s.dec := rfl
@[simp] theorem State.setCrc_fcs (s : State) (c : Half) : (s.setCrc c).fcs = s.fcs := rfl
@[simp] theorem State.setCrc_tlv (s : State) (c : Half) : (s.setCrc c).tlv = s.tlv := rfl
@[simp] theorem State.setCrc_latch (s : State) (c : Half) : (s.setCrc c).latch = s.latch := rfl
@[simp] theorem State.setCrc_env (s : State) (c : Half) : (s.setCrc c).env = s.env := rfl
@[simp] theorem State.setCrc_trace (s : State) (c : Half) : (s.setCrc c).trace = s.trace := rfl

/-! `State.setComplete`. -/

@[simp] theorem State.setComplete_params (s : State) (b : Bool) : (s.setComplete b).params = s.params := rfl
@[simp] theorem State.setComplete_live (s : State) (b : Bool) : (s.setComplete b).live = s.live := rfl
@[simp] theorem State.setComplete_protocol (s : State) (b : Bool) : (s.setComplete b).protocol = s.protocol := rfl
@[simp] theorem State.setComplete_agg (s : State) (b : Bool) : (s.setComplete b).agg = { s.agg with complete := b } := rfl
@[simp] theorem State.setComplete_buf (s : State) (b : Bool) : (s.setComplete b).buf = s.buf := rfl
@[simp] theorem State.setComplete_len (s : State) (b : Bool) : (s.setComplete b).len = s.len := rfl
@[simp] theorem State.setComplete_hstate (s : State) (b : Bool) : (s.setComplete b).hstate = s.hstate := rfl
@[simp] theorem State.setComplete_alt (s : State) (b : Bool) : (s.setComplete b).alt = s.alt := rfl
@[simp] theorem State.setComplete_dec (s : State) (b : Bool) : (s.setComplete b).dec = s.dec := rfl
@[simp] theorem State.setComplete_fcs (s : State) (b : Bool) : (s.setComplete b).fcs = s.fcs := rfl
@[simp] theorem State.setComplete_tlv (s : State) (b : Bool) : (s.setComplete b).tlv = s.tlv := rfl
@[simp] theorem State.setComplete_latch (s : State) (b : Bool) : (s.setComplete b).latch = s.latch := rfl
@[simp] theorem State.setComplete_env (s : State) (b : Bool) : (s.setComplete b).env = s.env := rfl
@[simp] theorem State.setComplete_trace (s : State) (b : Bool) : (s.setComplete b).trace = s.trace := rfl

/-! `State.setValid`. -/

@[simp] theorem State.setValid_params (s : State) (b : Bool) : (s.setValid b).params = s.params := rfl
@[simp] theorem State.setValid_live (s : State) (b : Bool) : (s.setValid b).live = s.live := rfl
@[simp] theorem State.setValid_protocol (s : State) (b : Bool) : (s.setValid b).protocol = s.protocol := rfl
@[simp] theorem State.setValid_agg (s : State) (b : Bool) : (s.setValid b).agg = { s.agg with valid := b } := rfl
@[simp] theorem State.setValid_buf (s : State) (b : Bool) : (s.setValid b).buf = s.buf := rfl
@[simp] theorem State.setValid_len (s : State) (b : Bool) : (s.setValid b).len = s.len := rfl
@[simp] theorem State.setValid_hstate (s : State) (b : Bool) : (s.setValid b).hstate = s.hstate := rfl
@[simp] theorem State.setValid_alt (s : State) (b : Bool) : (s.setValid b).alt = s.alt := rfl
@[simp] theorem State.setValid_dec (s : State) (b : Bool) : (s.setValid b).dec = s.dec := rfl
@[simp] theorem State.setValid_fcs (s : State) (b : Bool) : (s.setValid b).fcs = s.fcs := rfl
@[simp] theorem State.setValid_tlv (s : State) (b : Bool) : (s.setValid b).tlv = s.tlv := rfl
@[simp] theorem State.setValid_latch (s : State) (b : Bool) : (s.setValid b).latch = s.latch := rfl
@[simp] theorem State.setValid_env (s : State) (b : Bool) : (s.setValid b).env = s.env := rfl
@[simp] theorem State.setValid_trace (s : State) (b : Bool) : (s.setValid b).trace = s.trace := rfl

/-! `State.setPubcur`. -/

@[simp] theorem State.setPubcur_params (s : State) (n : Nat) : (s.setPubcur n).params = s.params := rfl
@[simp] theorem State.setPubcur_live (s : State) (n : Nat) : (s.setPubcur n).live = s.live := rfl
@[simp] theorem State.setPubcur_protocol (s : State) (n : Nat) : (s.setPubcur n).protocol = s.protocol := rfl
@[simp] theorem State.setPubcur_agg (s : State) (n : Nat) : (s.setPubcur n).agg = { s.agg with pubcur := n } := rfl
@[simp] theorem State.setPubcur_buf (s : State) (n : Nat) : (s.setPubcur n).buf = s.buf := rfl
@[simp] theorem State.setPubcur_len (s : State) (n : Nat) : (s.setPubcur n).len = s.len := rfl
@[simp] theorem State.setPubcur_hstate (s : State) (n : Nat) : (s.setPubcur n).hstate = s.hstate := rfl
@[simp] theorem State.setPubcur_alt (s : State) (n : Nat) : (s.setPubcur n).alt = s.alt := rfl
@[simp] theorem State.setPubcur_dec (s : State) (n : Nat) : (s.setPubcur n).dec = s.dec := rfl
@[simp] theorem State.setPubcur_fcs (s : State) (n : Nat) : (s.setPubcur n).fcs = s.fcs := rfl
@[simp] theorem State.setPubcur_tlv (s : State) (n : Nat) : (s.setPubcur n).tlv = s.tlv := rfl
@[simp] theorem State.setPubcur_latch (s : State) (n : Nat) : (s.setPubcur n).latch = s.latch := rfl
@[simp] theorem State.setPubcur_env (s : State) (n : Nat) : (s.setPubcur n).env = s.env := rfl
@[simp] theorem State.setPubcur_trace (s : State) (n : Nat) : (s.setPubcur n).trace = s.trace := rfl

/-! `State.setSlot`. -/

@[simp] theorem State.setSlot_params (s : State) (i : Fin 28) (v : F64) : (s.setSlot i v).params = s.params := rfl
@[simp] theorem State.setSlot_live (s : State) (i : Fin 28) (v : F64) : (s.setSlot i v).live = s.live := rfl
@[simp] theorem State.setSlot_protocol (s : State) (i : Fin 28) (v : F64) : (s.setSlot i v).protocol = s.protocol := rfl
@[simp] theorem State.setSlot_agg (s : State) (i : Fin 28) (v : F64) : (s.setSlot i v).agg = { s.agg with slots := s.agg.slots.set i.val v i.isLt } := rfl
@[simp] theorem State.setSlot_buf (s : State) (i : Fin 28) (v : F64) : (s.setSlot i v).buf = s.buf := rfl
@[simp] theorem State.setSlot_len (s : State) (i : Fin 28) (v : F64) : (s.setSlot i v).len = s.len := rfl
@[simp] theorem State.setSlot_hstate (s : State) (i : Fin 28) (v : F64) : (s.setSlot i v).hstate = s.hstate := rfl
@[simp] theorem State.setSlot_alt (s : State) (i : Fin 28) (v : F64) : (s.setSlot i v).alt = s.alt := rfl
@[simp] theorem State.setSlot_dec (s : State) (i : Fin 28) (v : F64) : (s.setSlot i v).dec = s.dec := rfl
@[simp] theorem State.setSlot_fcs (s : State) (i : Fin 28) (v : F64) : (s.setSlot i v).fcs = s.fcs := rfl
@[simp] theorem State.setSlot_tlv (s : State) (i : Fin 28) (v : F64) : (s.setSlot i v).tlv = s.tlv := rfl
@[simp] theorem State.setSlot_latch (s : State) (i : Fin 28) (v : F64) : (s.setSlot i v).latch = s.latch := rfl
@[simp] theorem State.setSlot_env (s : State) (i : Fin 28) (v : F64) : (s.setSlot i v).env = s.env := rfl
@[simp] theorem State.setSlot_trace (s : State) (i : Fin 28) (v : F64) : (s.setSlot i v).trace = s.trace := rfl

/-! `State.aggInit`. -/

@[simp] theorem State.aggInit_params (s : State) : (s.aggInit).params = s.params := rfl
@[simp] theorem State.aggInit_live (s : State) : (s.aggInit).live = s.live := rfl
@[simp] theorem State.aggInit_protocol (s : State) : (s.aggInit).protocol = s.protocol := rfl
@[simp] theorem State.aggInit_agg (s : State) : (s.aggInit).agg = Agg.init := rfl
@[simp] theorem State.aggInit_buf (s : State) : (s.aggInit).buf = s.buf := rfl
@[simp] theorem State.aggInit_len (s : State) : (s.aggInit).len = s.len := rfl
@[simp] theorem State.aggInit_hstate (s : State) : (s.aggInit).hstate = s.hstate := rfl
@[simp] theorem State.aggInit_alt (s : State) : (s.aggInit).alt = s.alt := rfl
@[simp] theorem State.aggInit_dec (s : State) : (s.aggInit).dec = s.dec := rfl
@[simp] theorem State.aggInit_fcs (s : State) : (s.aggInit).fcs = s.fcs := rfl
@[simp] theorem State.aggInit_tlv (s : State) : (s.aggInit).tlv = s.tlv := rfl
@[simp] theorem State.aggInit_latch (s : State) : (s.aggInit).latch = s.latch := rfl
@[simp] theorem State.aggInit_env (s : State) : (s.aggInit).env = s.env := rfl
@[simp] theorem State.aggInit_trace (s : State) : (s.aggInit).trace = s.trace := rfl

/-! `State.setAlt`. -/

@[simp] theorem State.setAlt_params (s : State) (a : Alt) : (s.setAlt a).params = s.params := rfl
@[simp] theorem State.setAlt_live (s : State) (a : Alt) : (s.setAlt a).live = s.live := rfl
@[simp] theorem State.setAlt_protocol (s : State) (a : Alt) : (s.setAlt a).protocol = s.protocol := rfl
@[simp] theorem State.setAlt_agg (s : State) (a : Alt) : (s.setAlt a).agg = s.agg := rfl
@[simp] theorem State.setAlt_buf (s : State) (a : Alt) : (s.setAlt a).buf = s.buf := rfl
@[simp] theorem State.setAlt_len (s : State) (a : Alt) : (s.setAlt a).len = s.len := rfl
@[simp] theorem State.setAlt_hstate (s : State) (a : Alt) : (s.setAlt a).hstate = s.hstate := rfl
@[simp] theorem State.setAlt_alt (s : State) (a : Alt) : (s.setAlt a).alt = a := rfl
@[simp] theorem State.setAlt_dec (s : State) (a : Alt) : (s.setAlt a).dec = s.dec := rfl
@[simp] theorem State.setAlt_fcs (s : State) (a : Alt) : (s.setAlt a).fcs = s.fcs := rfl
@[simp] theorem State.setAlt_tlv (s : State) (a : Alt) : (s.setAlt a).tlv = s.tlv := rfl
@[simp] theorem State.setAlt_latch (s : State) (a : Alt) : (s.setAlt a).latch = s.latch := rfl
@[simp] theorem State.setAlt_env (s : State) (a : Alt) : (s.setAlt a).env = s.env := rfl
@[simp] theorem State.setAlt_trace (s : State) (a : Alt) : (s.setAlt a).trace = s.trace := rfl

/-! `State.setDec`. -/

@[simp] theorem State.setDec_params (s : State) (d : Dec) : (s.setDec d).params = s.params := rfl
@[simp] theorem State.setDec_live (s : State) (d : Dec) : (s.setDec d).live = s.live := rfl
@[simp] theorem State.setDec_protocol (s : State) (d : Dec) : (s.setDec d).protocol = s.protocol := rfl
@[simp] theorem State.setDec_agg (s : State) (d : Dec) : (s.setDec d).agg = s.agg := rfl
@[simp] theorem State.setDec_buf (s : State) (d : Dec) : (s.setDec d).buf = s.buf := rfl
@[simp] theorem State.setDec_len (s : State) (d : Dec) : (s.setDec d).len = s.len := rfl
@[simp] theorem State.setDec_hstate (s : State) (d : Dec) : (s.setDec d).hstate = s.hstate := rfl
@[simp] theorem State.setDec_alt (s : State) (d : Dec) : (s.setDec d).alt = s.alt := rfl
@[simp] theorem State.setDec_dec (s : State) (d : Dec) : (s.setDec d).dec = d := rfl
@[simp] theorem State.setDec_fcs (s : State) (d : Dec) : (s.setDec d).fcs = s.fcs := rfl
@[simp] theorem State.setDec_tlv (s : State) (d : Dec) : (s.setDec d).tlv = s.tlv := rfl
@[simp] theorem State.setDec_latch (s : State) (d : Dec) : (s.setDec d).latch = s.latch := rfl
@[simp] theorem State.setDec_env (s : State) (d : Dec) : (s.setDec d).env = s.env := rfl
@[simp] theorem State.setDec_trace (s : State) (d : Dec) : (s.setDec d).trace = s.trace := rfl

/-! `State.setTlv`. -/

@[simp] theorem State.setTlv_params (s : State) (t : Tlv) : (s.setTlv t).params = s.params := rfl
@[simp] theorem State.setTlv_live (s : State) (t : Tlv) : (s.setTlv t).live = s.live := rfl
@[simp] theorem State.setTlv_protocol (s : State) (t : Tlv) : (s.setTlv t).protocol = s.protocol := rfl
@[simp] theorem State.setTlv_agg (s : State) (t : Tlv) : (s.setTlv t).agg = s.agg := rfl
@[simp] theorem State.setTlv_buf (s : State) (t : Tlv) : (s.setTlv t).buf = s.buf := rfl
@[simp] theorem State.setTlv_len (s : State) (t : Tlv) : (s.setTlv t).len = s.len := rfl
@[simp] theorem State.setTlv_hstate (s : State) (t : Tlv) : (s.setTlv t).hstate = s.hstate := rfl
@[simp] theorem State.setTlv_alt (s : State) (t : Tlv) : (s.setTlv t).alt = s.alt := rfl
@[simp] theorem State.setTlv_dec (s : State) (t : Tlv) : (s.setTlv t).dec = s.dec := rfl
@[simp] theorem State.setTlv_fcs (s : State) (t : Tlv) : (s.setTlv t).fcs = s.fcs := rfl
@[simp] theorem State.setTlv_tlv (s : State) (t : Tlv) : (s.setTlv t).tlv = t := rfl
@[simp] theorem State.setTlv_latch (s : State) (t : Tlv) : (s.setTlv t).latch = s.latch := rfl
@[simp] theorem State.setTlv_env (s : State) (t : Tlv) : (s.setTlv t).env = s.env := rfl
@[simp] theorem State.setTlv_trace (s : State) (t : Tlv) : (s.setTlv t).trace = s.trace := rfl

/-! `State.setLatch`. -/

@[simp] theorem State.setLatch_params (s : State) (l : Latch) : (s.setLatch l).params = s.params := rfl
@[simp] theorem State.setLatch_live (s : State) (l : Latch) : (s.setLatch l).live = s.live := rfl
@[simp] theorem State.setLatch_protocol (s : State) (l : Latch) : (s.setLatch l).protocol = s.protocol := rfl
@[simp] theorem State.setLatch_agg (s : State) (l : Latch) : (s.setLatch l).agg = s.agg := rfl
@[simp] theorem State.setLatch_buf (s : State) (l : Latch) : (s.setLatch l).buf = s.buf := rfl
@[simp] theorem State.setLatch_len (s : State) (l : Latch) : (s.setLatch l).len = s.len := rfl
@[simp] theorem State.setLatch_hstate (s : State) (l : Latch) : (s.setLatch l).hstate = s.hstate := rfl
@[simp] theorem State.setLatch_alt (s : State) (l : Latch) : (s.setLatch l).alt = s.alt := rfl
@[simp] theorem State.setLatch_dec (s : State) (l : Latch) : (s.setLatch l).dec = s.dec := rfl
@[simp] theorem State.setLatch_fcs (s : State) (l : Latch) : (s.setLatch l).fcs = s.fcs := rfl
@[simp] theorem State.setLatch_tlv (s : State) (l : Latch) : (s.setLatch l).tlv = s.tlv := rfl
@[simp] theorem State.setLatch_latch (s : State) (l : Latch) : (s.setLatch l).latch = l := rfl
@[simp] theorem State.setLatch_env (s : State) (l : Latch) : (s.setLatch l).env = s.env := rfl
@[simp] theorem State.setLatch_trace (s : State) (l : Latch) : (s.setLatch l).trace = s.trace := rfl

/-! `State.setFcs`. -/

@[simp] theorem State.setFcs_params (s : State) (c : Half) : (s.setFcs c).params = s.params := rfl
@[simp] theorem State.setFcs_live (s : State) (c : Half) : (s.setFcs c).live = s.live := rfl
@[simp] theorem State.setFcs_protocol (s : State) (c : Half) : (s.setFcs c).protocol = s.protocol := rfl
@[simp] theorem State.setFcs_agg (s : State) (c : Half) : (s.setFcs c).agg = s.agg := rfl
@[simp] theorem State.setFcs_buf (s : State) (c : Half) : (s.setFcs c).buf = s.buf := rfl
@[simp] theorem State.setFcs_len (s : State) (c : Half) : (s.setFcs c).len = s.len := rfl
@[simp] theorem State.setFcs_hstate (s : State) (c : Half) : (s.setFcs c).hstate = s.hstate := rfl
@[simp] theorem State.setFcs_alt (s : State) (c : Half) : (s.setFcs c).alt = s.alt := rfl
@[simp] theorem State.setFcs_dec (s : State) (c : Half) : (s.setFcs c).dec = s.dec := rfl
@[simp] theorem State.setFcs_fcs (s : State) (c : Half) : (s.setFcs c).fcs = c := rfl
@[simp] theorem State.setFcs_tlv (s : State) (c : Half) : (s.setFcs c).tlv = s.tlv := rfl
@[simp] theorem State.setFcs_latch (s : State) (c : Half) : (s.setFcs c).latch = s.latch := rfl
@[simp] theorem State.setFcs_env (s : State) (c : Half) : (s.setFcs c).env = s.env := rfl
@[simp] theorem State.setFcs_trace (s : State) (c : Half) : (s.setFcs c).trace = s.trace := rfl

/-! `State.setEnv`. -/

@[simp] theorem State.setEnv_params (s : State) (e : Env) : (s.setEnv e).params = s.params := rfl
@[simp] theorem State.setEnv_live (s : State) (e : Env) : (s.setEnv e).live = s.live := rfl
@[simp] theorem State.setEnv_protocol (s : State) (e : Env) : (s.setEnv e).protocol = s.protocol := rfl
@[simp] theorem State.setEnv_agg (s : State) (e : Env) : (s.setEnv e).agg = s.agg := rfl
@[simp] theorem State.setEnv_buf (s : State) (e : Env) : (s.setEnv e).buf = s.buf := rfl
@[simp] theorem State.setEnv_len (s : State) (e : Env) : (s.setEnv e).len = s.len := rfl
@[simp] theorem State.setEnv_hstate (s : State) (e : Env) : (s.setEnv e).hstate = s.hstate := rfl
@[simp] theorem State.setEnv_alt (s : State) (e : Env) : (s.setEnv e).alt = s.alt := rfl
@[simp] theorem State.setEnv_dec (s : State) (e : Env) : (s.setEnv e).dec = s.dec := rfl
@[simp] theorem State.setEnv_fcs (s : State) (e : Env) : (s.setEnv e).fcs = s.fcs := rfl
@[simp] theorem State.setEnv_tlv (s : State) (e : Env) : (s.setEnv e).tlv = s.tlv := rfl
@[simp] theorem State.setEnv_latch (s : State) (e : Env) : (s.setEnv e).latch = s.latch := rfl
@[simp] theorem State.setEnv_env (s : State) (e : Env) : (s.setEnv e).env = e := rfl
@[simp] theorem State.setEnv_trace (s : State) (e : Env) : (s.setEnv e).trace = s.trace := rfl

/-! `State.setQueue`. -/

@[simp] theorem State.setQueue_params (s : State) (q : List Byte) : (s.setQueue q).params = s.params := rfl
@[simp] theorem State.setQueue_live (s : State) (q : List Byte) : (s.setQueue q).live = s.live := rfl
@[simp] theorem State.setQueue_protocol (s : State) (q : List Byte) : (s.setQueue q).protocol = s.protocol := rfl
@[simp] theorem State.setQueue_agg (s : State) (q : List Byte) : (s.setQueue q).agg = s.agg := rfl
@[simp] theorem State.setQueue_buf (s : State) (q : List Byte) : (s.setQueue q).buf = s.buf := rfl
@[simp] theorem State.setQueue_len (s : State) (q : List Byte) : (s.setQueue q).len = s.len := rfl
@[simp] theorem State.setQueue_hstate (s : State) (q : List Byte) : (s.setQueue q).hstate = s.hstate := rfl
@[simp] theorem State.setQueue_alt (s : State) (q : List Byte) : (s.setQueue q).alt = s.alt := rfl
@[simp] theorem State.setQueue_dec (s : State) (q : List Byte) : (s.setQueue q).dec = s.dec := rfl
@[simp] theorem State.setQueue_fcs (s : State) (q : List Byte) : (s.setQueue q).fcs = s.fcs := rfl
@[simp] theorem State.setQueue_tlv (s : State) (q : List Byte) : (s.setQueue q).tlv = s.tlv := rfl
@[simp] theorem State.setQueue_latch (s : State) (q : List Byte) : (s.setQueue q).latch = s.latch := rfl
@[simp] theorem State.setQueue_env (s : State) (q : List Byte) : (s.setQueue q).env = { s.env with queue := q } := rfl
@[simp] theorem State.setQueue_trace (s : State) (q : List Byte) : (s.setQueue q).trace = s.trace := rfl

/-! `State.store`. -/

@[simp] theorem State.store_params (s : State) (i : Nat) (b : Byte) : (s.store i b).params = s.params := rfl
@[simp] theorem State.store_live (s : State) (i : Nat) (b : Byte) : (s.store i b).live = s.live := rfl
@[simp] theorem State.store_protocol (s : State) (i : Nat) (b : Byte) : (s.store i b).protocol = s.protocol := rfl
@[simp] theorem State.store_agg (s : State) (i : Nat) (b : Byte) : (s.store i b).agg = s.agg := rfl
@[simp] theorem State.store_buf (s : State) (i : Nat) (b : Byte) : (s.store i b).buf = s.buf.write i b := rfl
@[simp] theorem State.store_len (s : State) (i : Nat) (b : Byte) : (s.store i b).len = s.len := rfl
@[simp] theorem State.store_hstate (s : State) (i : Nat) (b : Byte) : (s.store i b).hstate = s.hstate := rfl
@[simp] theorem State.store_alt (s : State) (i : Nat) (b : Byte) : (s.store i b).alt = s.alt := rfl
@[simp] theorem State.store_dec (s : State) (i : Nat) (b : Byte) : (s.store i b).dec = s.dec := rfl
@[simp] theorem State.store_fcs (s : State) (i : Nat) (b : Byte) : (s.store i b).fcs = s.fcs := rfl
@[simp] theorem State.store_tlv (s : State) (i : Nat) (b : Byte) : (s.store i b).tlv = s.tlv := rfl
@[simp] theorem State.store_latch (s : State) (i : Nat) (b : Byte) : (s.store i b).latch = s.latch := rfl
@[simp] theorem State.store_env (s : State) (i : Nat) (b : Byte) : (s.store i b).env = s.env := rfl
@[simp] theorem State.store_trace (s : State) (i : Nat) (b : Byte) : (s.store i b).trace = s.trace := rfl

/-! `State.toScanning`. -/

@[simp] theorem State.toScanning_params (s : State) : (s.toScanning).params = s.params := rfl
@[simp] theorem State.toScanning_live (s : State) : (s.toScanning).live = s.live := rfl
@[simp] theorem State.toScanning_protocol (s : State) : (s.toScanning).protocol = s.protocol := rfl
@[simp] theorem State.toScanning_agg (s : State) : (s.toScanning).agg = Agg.init := rfl
@[simp] theorem State.toScanning_buf (s : State) : (s.toScanning).buf = s.buf := rfl
@[simp] theorem State.toScanning_len (s : State) : (s.toScanning).len = 0 := rfl
@[simp] theorem State.toScanning_hstate (s : State) : (s.toScanning).hstate = .outsideFrame := rfl
@[simp] theorem State.toScanning_alt (s : State) : (s.toScanning).alt = s.alt := rfl
@[simp] theorem State.toScanning_dec (s : State) : (s.toScanning).dec = s.dec := rfl
@[simp] theorem State.toScanning_fcs (s : State) : (s.toScanning).fcs = s.fcs := rfl
@[simp] theorem State.toScanning_tlv (s : State) : (s.toScanning).tlv = s.tlv := rfl
@[simp] theorem State.toScanning_latch (s : State) : (s.toScanning).latch = s.latch := rfl
@[simp] theorem State.toScanning_env (s : State) : (s.toScanning).env = s.env := rfl
@[simp] theorem State.toScanning_trace (s : State) : (s.toScanning).trace = s.trace := rfl

/-! `State.abortSequence`. -/

@[simp] theorem State.abortSequence_params (s : State) (e : ErrorCode) : (s.abortSequence e).params = s.params := rfl
@[simp] theorem State.abortSequence_live (s : State) (e : ErrorCode) : (s.abortSequence e).live = s.live := rfl
@[simp] theorem State.abortSequence_protocol (s : State) (e : ErrorCode) : (s.abortSequence e).protocol = s.protocol := rfl
@[simp] theorem State.abortSequence_agg (s : State) (e : ErrorCode) : (s.abortSequence e).agg = Agg.init := rfl
@[simp] theorem State.abortSequence_buf (s : State) (e : ErrorCode) : (s.abortSequence e).buf = s.buf := rfl
@[simp] theorem State.abortSequence_len (s : State) (e : ErrorCode) : (s.abortSequence e).len = 0 := rfl
@[simp] theorem State.abortSequence_hstate (s : State) (e : ErrorCode) : (s.abortSequence e).hstate = .outsideFrame := rfl
@[simp] theorem State.abortSequence_alt (s : State) (e : ErrorCode) : (s.abortSequence e).alt = s.alt := rfl
@[simp] theorem State.abortSequence_dec (s : State) (e : ErrorCode) : (s.abortSequence e).dec = s.dec := rfl
@[simp] theorem State.abortSequence_fcs (s : State) (e : ErrorCode) : (s.abortSequence e).fcs = s.fcs := rfl
@[simp] theorem State.abortSequence_tlv (s : State) (e : ErrorCode) : (s.abortSequence e).tlv = s.tlv := rfl
@[simp] theorem State.abortSequence_latch (s : State) (e : ErrorCode) : (s.abortSequence e).latch = s.latch := rfl
@[simp] theorem State.abortSequence_env (s : State) (e : ErrorCode) : (s.abortSequence e).env = s.env := rfl
@[simp] theorem State.abortSequence_trace (s : State) (e : ErrorCode) : (s.abortSequence e).trace = s.trace ++ [.report e] := rfl

/-! Reads through an update. -/

@[simp] theorem State.emit_byteAt (s : State) (ev : Event) (j : Nat) : (s.emit ev).byteAt j = s.byteAt j := rfl
@[simp] theorem State.emit_bytes (s : State) (ev : Event) (j k : Nat) : (s.emit ev).bytes j k = s.bytes j k := rfl
@[simp] theorem State.report_byteAt (s : State) (e : ErrorCode) (j : Nat) : (s.report e).byteAt j = s.byteAt j := rfl
@[simp] theorem State.report_bytes (s : State) (e : ErrorCode) (j k : Nat) : (s.report e).bytes j k = s.bytes j k := rfl
@[simp] theorem State.setLen_byteAt (s : State) (n : Nat) (j : Nat) : (s.setLen n).byteAt j = s.byteAt j := rfl
@[simp] theorem State.setLen_bytes (s : State) (n : Nat) (j k : Nat) : (s.setLen n).bytes j k = s.bytes j k := rfl
@[simp] theorem State.setHState_byteAt (s : State) (h : HState) (j : Nat) : (s.setHState h).byteAt j = s.byteAt j := rfl
@[simp] theorem State.setHState_bytes (s : State) (h : HState) (j k : Nat) : (s.setHState h).bytes j k = s.bytes j k := rfl
@[simp] theorem State.setCrc_byteAt (s : State) (c : Half) (j : Nat) : (s.setCrc c).byteAt j = s.byteAt j := rfl
@[simp] theorem State.setCrc_bytes (s : State) (c : Half) (j k : Nat) : (s.setCrc c).bytes j k = s.bytes j k := rfl
@[simp] theorem State.setComplete_byteAt (s : State) (b : Bool) (j : Nat) : (s.setComplete b).byteAt j = s.byteAt j := rfl
@[simp] theorem State.setComplete_bytes (s : State) (b : Bool) (j k : Nat) : (s.setComplete b).bytes j k = s.bytes j k := rfl
@[simp] theorem State.setValid_byteAt (s : State) (b : Bool) (j : Nat) : (s.setValid b).byteAt j = s.byteAt j := rfl
@[simp] theorem State.setValid_bytes (s : State) (b : Bool) (j k : Nat) : (s.setValid b).bytes j k = s.bytes j k := rfl
@[simp] theorem State.setPubcur_byteAt (s : State) (n : Nat) (j : Nat) : (s.setPubcur n).byteAt j = s.byteAt j := rfl
@[simp] theorem State.setPubcur_bytes (s : State) (n : Nat) (j k : Nat) : (s.setPubcur n).bytes j k = s.bytes j k := rfl
@[simp] theorem State.setSlot_byteAt (s : State) (i : Fin 28) (v : F64) (j : Nat) : (s.setSlot i v).byteAt j = s.byteAt j := rfl
@[simp] theorem State.setSlot_bytes (s : State) (i : Fin 28) (v : F64) (j k : Nat) : (s.setSlot i v).bytes j k = s.bytes j k := rfl
@[simp] theorem State.aggInit_byteAt (s : State) (j : Nat) : (s.aggInit).byteAt j = s.byteAt j := rfl
@[simp] theorem State.aggInit_bytes (s : State) (j k : Nat) : (s.aggInit).bytes j k = s.bytes j k := rfl
@[simp] theorem State.setAlt_byteAt (s : State) (a : Alt) (j : Nat) : (s.setAlt a).byteAt j = s.byteAt j := rfl
@[simp] theorem State.setAlt_bytes (s : State) (a : Alt) (j k : Nat) : (s.setAlt a).bytes j k = s.bytes j k := rfl
@[simp] theorem State.setDec_byteAt (s : State) (d : Dec) (j : Nat) : (s.setDec d).byteAt j = s.byteAt j := rfl
@[simp] theorem State.setDec_bytes (s : State) (d : Dec) (j k : Nat) : (s.setDec d).bytes j k = s.bytes j k := rfl
@[simp] theorem State.setTlv_byteAt (s : State) (t : Tlv) (j : Nat) : (s.setTlv t).byteAt j = s.byteAt j := rfl
@[simp] theorem State.setTlv_bytes (s : State) (t : Tlv) (j k : Nat) : (s.setTlv t).bytes j k = s.bytes j k := rfl
@[simp] theorem State.setLatch_byteAt (s : State) (l : Latch) (j : Nat) : (s.setLatch l).byteAt j = s.byteAt j := rfl
@[simp] theorem State.setLatch_bytes (s : State) (l : Latch) (j k : Nat) : (s.setLatch l).bytes j k = s.bytes j k := rfl
@[simp] theorem State.setFcs_byteAt (s : State) (c : Half) (j : Nat) : (s.setFcs c).byteAt j = s.byteAt j := rfl
@[simp] theorem State.setFcs_bytes (s : State) (c : Half) (j k : Nat) : (s.setFcs c).bytes j k = s.bytes j k := rfl
@[simp] theorem State.setEnv_byteAt (s : State) (e : Env) (j : Nat) : (s.setEnv e).byteAt j = s.byteAt j := rfl
@[simp] theorem State.setEnv_bytes (s : State) (e : Env) (j k : Nat) : (s.setEnv e).bytes j k = s.bytes j k := rfl
@[simp] theorem State.setQueue_byteAt (s : State) (q : List Byte) (j : Nat) : (s.setQueue q).byteAt j = s.byteAt j := rfl
@[simp] theorem State.setQueue_bytes (s : State) (q : List Byte) (j k : Nat) : (s.setQueue q).bytes j k = s.bytes j k := rfl
@[simp] theorem State.toScanning_byteAt (s : State) (j : Nat) : (s.toScanning).byteAt j = s.byteAt j := rfl
@[simp] theorem State.toScanning_bytes (s : State) (j k : Nat) : (s.toScanning).bytes j k = s.bytes j k := rfl
@[simp] theorem State.abortSequence_byteAt (s : State) (e : ErrorCode) (j : Nat) : (s.abortSequence e).byteAt j = s.byteAt j := rfl
@[simp] theorem State.abortSequence_bytes (s : State) (e : ErrorCode) (j k : Nat) : (s.abortSequence e).bytes j k = s.bytes j k := rfl

end Sys2Proof.Machine
end

