-- ==== Sys2Proof/Laws/Ops.lean ====
section
/-! SUPPORT. What each shared operation can do, said once: proofs cite these and do not unfold the operation. -/

namespace Sys2Proof.Machine

/-! How micro-operations combine. -/

theorem Flow.outcome_eq_next {f : Flow} {t : State} : f.outcome = .next t ↔ f = .go t ∨ f = .ended t := by
  cases f <;> simp [Flow.outcome]

theorem Flow.outcome_eq_fault {f : Flow} {r : Fault} : f.outcome = .fault r ↔ f = .stop r := by
  cases f <;> simp [Flow.outcome]

theorem Flow.outcome_ne_refused {f : Flow} {r : Refusal} : f.outcome ≠ .refused r := by
  cases f <;> simp [Flow.outcome]

@[simp] theorem Flow.go_andThen (s : State) (k : State → Flow) : (Flow.go s).andThen k = k s := rfl

@[simp] theorem Flow.ended_andThen (s : State) (k : State → Flow) : (Flow.ended s).andThen k = .ended s := rfl

@[simp] theorem Flow.stop_andThen (r : Fault) (k : State → Flow) : (Flow.stop r).andThen k = .stop r := rfl

theorem Flow.andThen_eq_go {f : Flow} {k : State → Flow} {t : State} :
    f.andThen k = .go t ↔ ∃ u, f = .go u ∧ k u = .go t := by
  cases f <;> simp [Flow.andThen]

theorem Flow.andThen_eq_ended {f : Flow} {k : State → Flow} {t : State} :
    f.andThen k = .ended t ↔ f = .ended t ∨ ∃ u, f = .go u ∧ k u = .ended t := by
  cases f <;> simp [Flow.andThen]

theorem Flow.andThen_eq_stop {f : Flow} {k : State → Flow} {r : Fault} :
    f.andThen k = .stop r ↔ f = .stop r ∨ ∃ u, f = .go u ∧ k u = .stop r := by
  cases f <;> simp [Flow.andThen]

theorem Flow.andThen_assoc (f : Flow) (j k : State → Flow) :
    (f.andThen j).andThen k = f.andThen fun s => (j s).andThen k := by
  cases f <;> rfl

/-! The abort sequence (R329). -/

theorem State.abortSequence_eq_afterAbort (s : State) (e : ErrorCode) : s.abortSequence e = s.afterAbort e := rfl

theorem raise_eq (e : ErrorCode) (s : State) : raise e s = .ended (s.afterAbort e) := rfl

/-- The initial aggregate is at rest. -/
theorem Agg.init_atRest : Agg.init.AtRest := by
  refine ⟨fun i => ?_, rfl, rfl, rfl, rfl⟩
  simp [Agg.init, Vector.get]

/-- The abort sequence leaves what R342 says. -/
theorem State.afterAbort_aborted (s : State) (e : ErrorCode) : (s.afterAbort e).Aborted := ⟨rfl, rfl, Agg.init_atRest⟩

/-! The overrun check (R251). -/

theorem need_of_le {n : Nat} {s : State} {k : State → Flow} (h : s.tlv.cur + n ≤ s.len) : need n s k = k s := by
  simp [need, Nat.not_lt.mpr h]

theorem need_of_lt {n : Nat} {s : State} {k : State → Flow} (h : s.len < s.tlv.cur + n) :
    need n s k = .ended (s.afterAbort .truncatedStruct) := by
  simp [need, h, raise_eq]

/-- Everything `need` can do. -/
theorem need_cases (n : Nat) (s : State) (k : State → Flow) :
    (s.tlv.cur + n ≤ s.len ∧ need n s k = k s) ∨
    (s.len < s.tlv.cur + n ∧ need n s k = .ended (s.afterAbort .truncatedStruct)) := by
  rcases Nat.lt_or_ge s.len (s.tlv.cur + n) with h | h
  · exact .inr ⟨h, need_of_lt h⟩
  · exact .inl ⟨h, need_of_le h⟩

/-! The append (R76). -/

theorem bufferFull_iff (s : State) : bufferFull s = true ↔ s.params.bufCap ≤ s.len := by simp [bufferFull]

/-- Everything `bufAppend` can do: the byte is stored at `len`, or the buffer is full and the line or frame dropped. -/
theorem bufAppend_cases (b : Byte) (s : State) :
    (s.len < s.params.bufCap ∧ bufAppend b s = .go { s with buf := s.buf.write s.len b, len := s.len + 1 }) ∨
    (s.params.bufCap ≤ s.len ∧ bufAppend b s = .ended (s.afterAbort .frameTooLarge)) := by
  rcases Nat.lt_or_ge s.len s.params.bufCap with h | h
  · refine .inl ⟨h, ?_⟩
    have : bufferFull s = false := by simp [bufferFull, h]
    simp [bufAppend, this, State.store, State.setLen]
  · refine .inr ⟨h, ?_⟩
    simp [bufAppend, (bufferFull_iff s).2 h, raise_eq]

/-- An append keeps the buffer's canonical form and bounds. -/
theorem State.BufferOk.append {s : State} (h : s.BufferOk) (b : Byte) (hl : s.len < s.params.bufCap) :
    ({ s with buf := s.buf.write s.len b, len := s.len + 1 } : State).BufferOk :=
  ⟨Memory.wf_write _ _ h.1, Memory.below_write _ h.2.1 hl, hl⟩

/-! Reads of the buffer (R78). -/

@[simp] theorem State.bytes_length (s : State) (a b : Nat) : (s.bytes a b).length = b - a := by simp [State.bytes]

theorem State.bytes_getElem (s : State) (a b i : Nat) (h : i < (s.bytes a b).length) :
    (s.bytes a b)[i] = s.buf.read (a + i) := by simp [State.bytes]

theorem State.mem_bytes {s : State} {a b : Nat} {x : Byte} :
    x ∈ s.bytes a b ↔ ∃ i, a ≤ i ∧ i < b ∧ s.buf.read i = x := by
  constructor
  · intro h
    obtain ⟨i, hi, rfl⟩ := List.mem_map.1 h
    have := List.mem_range.1 hi
    exact ⟨a + i, by omega, by omega, rfl⟩
  · rintro ⟨i, h1, h2, rfl⟩
    refine List.mem_map.2 ⟨i - a, List.mem_range.2 (by omega), ?_⟩
    rw [Nat.add_sub_cancel' h1]

theorem State.withBytes_of_le {s : State} {a b : Nat} {k : List Byte → Flow} (h : b ≤ s.len) :
    s.withBytes a b k = k (s.bytes a b) := by simp [State.withBytes, h]

theorem State.withBytes_of_lt {s : State} {a b : Nat} {k : List Byte → Flow} (h : s.len < b) :
    s.withBytes a b k = .stop .bufReadPastLen := by simp [State.withBytes, Nat.not_le.mpr h]

theorem State.withToken_present {s : State} {t : Tok} {k : List Byte → Flow} (hp : t.present = true)
    (h : t.stop ≤ s.len) : s.withToken t k = k (s.bytes t.start t.stop) := by
  simp [State.withToken, hp, State.withBytes_of_le h]

/-! Slots (R292). -/

theorem State.setSlot_get_same (s : State) (i : Fin 28) (v : F64) : (s.setSlot i v).agg.slots.get i = v := by
  simp [State.setSlot, Vector.get_eq_getElem]

theorem State.setSlot_get_other (s : State) {i j : Fin 28} (v : F64) (h : j ≠ i) :
    (s.setSlot i v).agg.slots.get j = s.agg.slots.get j := by
  have : i.val ≠ j.val := fun e => h (Fin.ext e.symm)
  simp [State.setSlot, Vector.get_eq_getElem, this]

/-! The ROM (R161). -/

/-- Everything a lookup can do: it writes the result latches and nothing else. -/
theorem doRomLkp_cases (key : Key) (s : State) :
    (∃ slot, romSlotOf s.params.romExtra key = some slot ∧
      doRomLkp key s = { s with latch := { s.latch with romHit := true, romSlot := slot } }) ∨
    (romSlotOf s.params.romExtra key = none ∧ doRomLkp key s = { s with latch := { s.latch with romHit := false } }) := by
  unfold doRomLkp
  cases h : romSlotOf s.params.romExtra key with
  | some slot => exact .inl ⟨slot, rfl, rfl⟩
  | none => exact .inr ⟨rfl, rfl⟩

/-! Deliveries (R293). -/

/-- A delivery below a legal cursor. -/
theorem doAggDlv_of_le {s : State} (h1 : 1 ≤ s.agg.pubcur) (h2 : s.agg.pubcur ≤ 28) :
    doAggDlv s = .go { s with
      trace := s.trace ++ [.deliver ⟨28 - s.agg.pubcur, by omega⟩ (s.agg.slots.get ⟨28 - s.agg.pubcur, by omega⟩)]
      agg := { s.agg with pubcur := s.agg.pubcur - 1 } } := by
  simp [doAggDlv, h1, h2, State.emit, State.setPubcur]

/-! CRC runs (R149, R231). -/

/-- The run of `CRCX.UPD` over a list of bytes leaves the register at the fold of the step. -/
theorem crcxRun_eq (bs : List Byte) (s : State) : crcxRun bs s = s.setFcs (crcBytes crcxPoly s.fcs bs) := by
  induction bs generalizing s with
  | nil => rfl
  | cons b bs ih => rw [crcxRun, ih]; rfl

/-- Feeding a concatenation is feeding its parts in turn (R143). -/
theorem crcBytes_append (poly c : Half) (bs cs : List Byte) :
    crcBytes poly c (bs ++ cs) = crcBytes poly (crcBytes poly c bs) cs := List.foldl_append

end Sys2Proof.Machine
end

