-- ==== Sys2Proof/Laws/PerInstr.lean ====
section
/-! SUPPORT. The family EncodingBytes: how many bytes an operation's selecting pattern has, and which operations no
pattern selects. -/

namespace Sys2Proof.Laws.EncodingBytes

/-- A well-formed operation that a bit pattern selects has a pattern of 1 to 257 bytes; an operation without one stands
at no position of an input (R100, R108). -/
def Statement (i : Instr) : Prop :=
  (i.wf = true → ∀ bs, encode i = some bs → 1 ≤ bs.length ∧ bs.length ≤ 257) ∧
  (encode i = none → ∀ ctx, i.appearsIn ctx = false)

/-- An operation with a pattern of fixed length. -/
theorem of_some {i : Instr} {bs : List Byte} (h : encode i = some bs) (h1 : 1 ≤ bs.length) (h2 : bs.length ≤ 257) :
    Statement i := by
  refine ⟨fun _ cs hc => ?_, fun hn => by rw [h] at hn; exact absurd hn (by simp)⟩
  rw [h] at hc
  cases hc
  exact ⟨h1, h2⟩

/-- An operation without a pattern. -/
theorem of_none {i : Instr} (h : encode i = none) (ha : ∀ ctx, i.appearsIn ctx = false) : Statement i :=
  ⟨fun _ bs hb => (by rw [h] at hb; exact absurd hb (by simp)), fun _ => ha⟩

theorem reset (p : Protocol) : Statement (.reset p) := of_none rfl fun _ => rfl
theorem nop (reserved : Bool) : Statement (.nop reserved) := of_some rfl (Nat.le_of_ble_eq_true rfl) (Nat.le_of_ble_eq_true rfl)
theorem invoke : Statement .invoke := of_some rfl (Nat.le_of_ble_eq_true rfl) (Nat.le_of_ble_eq_true rfl)
theorem abort : Statement .abort := of_some rfl (Nat.le_of_ble_eq_true rfl) (Nat.le_of_ble_eq_true rfl)
theorem fDrain : Statement .fDrain := of_none rfl fun _ => rfl
theorem fDiscard : Statement .fDiscard := of_none rfl fun _ => rfl
theorem fParseA : Statement .fParseA := of_none rfl fun _ => rfl
theorem fParseH : Statement .fParseH := of_none rfl fun _ => rfl
theorem aggInit : Statement .aggInit := of_none rfl fun _ => rfl
theorem aggWr (slot : Fin 28) (v : F64) : Statement (.aggWr slot v) := of_none rfl fun _ => rfl
theorem aggDlv : Statement .aggDlv := of_none rfl fun _ => rfl
theorem crcaClr : Statement .crcaClr := of_none rfl fun _ => rfl
theorem crcaUpd (b : Byte) : Statement (.crcaUpd b) := of_none rfl fun _ => rfl
theorem crcxClr : Statement .crcxClr := of_none rfl fun _ => rfl
theorem crcxUpd (b : Byte) : Statement (.crcxUpd b) := of_none rfl fun _ => rfl
theorem crcxFin : Statement .crcxFin := of_none rfl fun _ => rfl
theorem romLkp (key : Key) : Statement (.romLkp key) := of_none rfl fun _ => rfl
theorem decParse (k : Fin 4) : Statement (.decParse k) := of_none rfl fun _ => rfl
theorem decSign : Statement .decSign := of_some rfl (Nat.le_of_ble_eq_true rfl) (Nat.le_of_ble_eq_true rfl)
theorem decDigit (d : BitVec 4) : Statement (.decDigit d) := of_some rfl (Nat.le_of_ble_eq_true rfl) (Nat.le_of_ble_eq_true rfl)
theorem decPoint : Statement .decPoint := of_some rfl (Nat.le_of_ble_eq_true rfl) (Nat.le_of_ble_eq_true rfl)
theorem decFrac (d : BitVec 4) : Statement (.decFrac d) := of_some rfl (Nat.le_of_ble_eq_true rfl) (Nat.le_of_ble_eq_true rfl)
theorem decEnd : Statement .decEnd := of_none rfl fun _ => rfl
theorem decBad (b : Byte) : Statement (.decBad b) := of_some rfl (Nat.le_of_ble_eq_true rfl) (Nat.le_of_ble_eq_true rfl)
theorem sclScale (raw : Int) (scale : Int) : Statement (.sclScale raw scale) := of_none rfl fun _ => rfl
theorem aChar (b : Byte) : Statement (.aChar b) := of_some rfl (Nat.le_of_ble_eq_true rfl) (Nat.le_of_ble_eq_true rfl)
theorem aEol : Statement .aEol := of_some rfl (Nat.le_of_ble_eq_true rfl) (Nat.le_of_ble_eq_true rfl)
theorem aOvf (b : Byte) : Statement (.aOvf b) := of_some rfl (Nat.le_of_ble_eq_true rfl) (Nat.le_of_ble_eq_true rfl)
theorem lCksum : Statement .lCksum := of_some rfl (Nat.le_of_ble_eq_true rfl) (Nat.le_of_ble_eq_true rfl)
theorem hexParse : Statement .hexParse := of_none rfl fun _ => rfl
theorem lOther : Statement .lOther := of_none rfl fun _ => rfl
theorem lStrip : Statement .lStrip := of_none rfl fun _ => rfl
theorem lData : Statement .lData := of_none rfl fun _ => rfl
theorem tSplit : Statement .tSplit := of_none rfl fun _ => rfl
theorem idMatch (k : Fin 4) : Statement (.idMatch k) := of_some rfl (Nat.le_of_ble_eq_true rfl) (Nat.le_of_ble_eq_true rfl)
theorem keyParse (k : Fin 4) : Statement (.keyParse k) := of_none rfl fun _ => rfl
theorem hSkip (b : Byte) : Statement (.hSkip b) := of_some rfl (Nat.le_of_ble_eq_true rfl) (Nat.le_of_ble_eq_true rfl)
theorem hOpen : Statement .hOpen := of_some rfl (Nat.le_of_ble_eq_true rfl) (Nat.le_of_ble_eq_true rfl)
theorem hData (b : Byte) : Statement (.hData b) := of_some rfl (Nat.le_of_ble_eq_true rfl) (Nat.le_of_ble_eq_true rfl)
theorem hClose : Statement .hClose := of_some rfl (Nat.le_of_ble_eq_true rfl) (Nat.le_of_ble_eq_true rfl)
theorem hOvf (b : Byte) : Statement (.hOvf b) := of_some rfl (Nat.le_of_ble_eq_true rfl) (Nat.le_of_ble_eq_true rfl)
theorem hTmo : Statement .hTmo := of_none rfl fun _ => rfl
theorem hValidate : Statement .hValidate := of_none rfl fun _ => rfl
theorem vSize : Statement .vSize := of_none rfl fun _ => rfl
theorem vLen : Statement .vLen := of_none rfl fun _ => rfl
theorem vFcs : Statement .vFcs := of_none rfl fun _ => rfl
theorem vOk : Statement .vOk := of_none rfl fun _ => rfl
theorem hHdr : Statement .hHdr := of_none rfl fun _ => rfl
theorem hDate (dl : Byte) : Statement (.hDate dl) := of_some rfl (Nat.le_of_ble_eq_true rfl) (Nat.le_of_ble_eq_true rfl)
theorem array (n : Byte) : Statement (.array n) := of_some rfl (Nat.le_of_ble_eq_true rfl) (Nat.le_of_ble_eq_true rfl)
theorem hDone : Statement .hDone := of_none rfl fun _ => rfl
theorem struct (cnt : Byte) : Statement (.struct cnt) := of_some rfl (Nat.le_of_ble_eq_true rfl) (Nat.le_of_ble_eq_true rfl)
theorem structN (cnt : Byte) : Statement (.structN cnt) := of_some rfl (Nat.le_of_ble_eq_true rfl) (Nat.le_of_ble_eq_true rfl)
theorem scale (e : Byte) : Statement (.scale e) := of_some rfl (Nat.le_of_ble_eq_true rfl) (Nat.le_of_ble_eq_true rfl)
theorem unit (u : Byte) : Statement (.unit u) := of_some rfl (Nat.le_of_ble_eq_true rfl) (Nat.le_of_ble_eq_true rfl)
theorem octs (ls : Byte) (str : List Byte) : Statement (.octs ls str) := by
  refine ⟨fun hw bs hb => ?_, fun hn => absurd hn (by simp [encode])⟩
  have hl : str.length = ls.toNat := by simpa [Instr.wf] using hw
  have hlt : ls.toNat < 256 := ls.isLt
  simp only [encode, Option.some.injEq] at hb
  subst hb
  simp only [List.length_cons]
  omega
theorem u32 (v : Word32) : Statement (.u32 v) := of_some rfl (Nat.le_of_ble_eq_true rfl) (Nat.le_of_ble_eq_true rfl)
theorem i16 (v : Half) : Statement (.i16 v) := of_some rfl (Nat.le_of_ble_eq_true rfl) (Nat.le_of_ble_eq_true rfl)
theorem u16 (v : Half) : Statement (.u16 v) := of_some rfl (Nat.le_of_ble_eq_true rfl) (Nat.le_of_ble_eq_true rfl)
theorem unk (tag : Byte) : Statement (.unk tag) := of_some rfl (Nat.le_of_ble_eq_true rfl) (Nat.le_of_ble_eq_true rfl)
theorem commit : Statement .commit := of_none rfl fun _ => rfl
theorem romRowCumActImp : Statement .romRowCumActImp := of_some rfl (Nat.le_of_ble_eq_true rfl) (Nat.le_of_ble_eq_true rfl)
theorem romRowCumActExp : Statement .romRowCumActExp := of_some rfl (Nat.le_of_ble_eq_true rfl) (Nat.le_of_ble_eq_true rfl)
theorem romRowCumReactImp : Statement .romRowCumReactImp := of_some rfl (Nat.le_of_ble_eq_true rfl) (Nat.le_of_ble_eq_true rfl)
theorem romRowCumReactExp : Statement .romRowCumReactExp := of_some rfl (Nat.le_of_ble_eq_true rfl) (Nat.le_of_ble_eq_true rfl)
theorem romRowInstActImp : Statement .romRowInstActImp := of_some rfl (Nat.le_of_ble_eq_true rfl) (Nat.le_of_ble_eq_true rfl)
theorem romRowInstActExp : Statement .romRowInstActExp := of_some rfl (Nat.le_of_ble_eq_true rfl) (Nat.le_of_ble_eq_true rfl)
theorem romRowInstReactImp : Statement .romRowInstReactImp := of_some rfl (Nat.le_of_ble_eq_true rfl) (Nat.le_of_ble_eq_true rfl)
theorem romRowInstReactExp : Statement .romRowInstReactExp := of_some rfl (Nat.le_of_ble_eq_true rfl) (Nat.le_of_ble_eq_true rfl)
theorem romRowInstActImpL1 : Statement .romRowInstActImpL1 := of_some rfl (Nat.le_of_ble_eq_true rfl) (Nat.le_of_ble_eq_true rfl)
theorem romRowInstActImpL2 : Statement .romRowInstActImpL2 := of_some rfl (Nat.le_of_ble_eq_true rfl) (Nat.le_of_ble_eq_true rfl)
theorem romRowInstActImpL3 : Statement .romRowInstActImpL3 := of_some rfl (Nat.le_of_ble_eq_true rfl) (Nat.le_of_ble_eq_true rfl)
theorem romRowInstActExpL1 : Statement .romRowInstActExpL1 := of_some rfl (Nat.le_of_ble_eq_true rfl) (Nat.le_of_ble_eq_true rfl)
theorem romRowInstActExpL2 : Statement .romRowInstActExpL2 := of_some rfl (Nat.le_of_ble_eq_true rfl) (Nat.le_of_ble_eq_true rfl)
theorem romRowInstActExpL3 : Statement .romRowInstActExpL3 := of_some rfl (Nat.le_of_ble_eq_true rfl) (Nat.le_of_ble_eq_true rfl)
theorem romRowInstReactImpL1 : Statement .romRowInstReactImpL1 := of_some rfl (Nat.le_of_ble_eq_true rfl) (Nat.le_of_ble_eq_true rfl)
theorem romRowInstReactImpL2 : Statement .romRowInstReactImpL2 := of_some rfl (Nat.le_of_ble_eq_true rfl) (Nat.le_of_ble_eq_true rfl)
theorem romRowInstReactImpL3 : Statement .romRowInstReactImpL3 := of_some rfl (Nat.le_of_ble_eq_true rfl) (Nat.le_of_ble_eq_true rfl)
theorem romRowInstReactExpL1 : Statement .romRowInstReactExpL1 := of_some rfl (Nat.le_of_ble_eq_true rfl) (Nat.le_of_ble_eq_true rfl)
theorem romRowInstReactExpL2 : Statement .romRowInstReactExpL2 := of_some rfl (Nat.le_of_ble_eq_true rfl) (Nat.le_of_ble_eq_true rfl)
theorem romRowInstReactExpL3 : Statement .romRowInstReactExpL3 := of_some rfl (Nat.le_of_ble_eq_true rfl) (Nat.le_of_ble_eq_true rfl)
theorem romRowCurrentL1 : Statement .romRowCurrentL1 := of_some rfl (Nat.le_of_ble_eq_true rfl) (Nat.le_of_ble_eq_true rfl)
theorem romRowCurrentL2 : Statement .romRowCurrentL2 := of_some rfl (Nat.le_of_ble_eq_true rfl) (Nat.le_of_ble_eq_true rfl)
theorem romRowCurrentL3 : Statement .romRowCurrentL3 := of_some rfl (Nat.le_of_ble_eq_true rfl) (Nat.le_of_ble_eq_true rfl)
theorem romRowVoltageL1 : Statement .romRowVoltageL1 := of_some rfl (Nat.le_of_ble_eq_true rfl) (Nat.le_of_ble_eq_true rfl)
theorem romRowVoltageL2 : Statement .romRowVoltageL2 := of_some rfl (Nat.le_of_ble_eq_true rfl) (Nat.le_of_ble_eq_true rfl)
theorem romRowVoltageL3 : Statement .romRowVoltageL3 := of_some rfl (Nat.le_of_ble_eq_true rfl) (Nat.le_of_ble_eq_true rfl)

end Sys2Proof.Laws.EncodingBytes
end

