-- ==== Sys2Proof/Tests/Slice0.lean ====
section
/-! SUPPORT. Tests: the ill-formed terms each check refuses, one hand-written word per operation, one or two small
steps per operation from the spec's vectors, and a witness for the hypotheses of each statement. -/

open Sys2Proof Sys2Proof.Machine

namespace Sys2Proof.Tests

-- one theorem at a time: many kernel evaluations at once would each hold a stack of their own
set_option Elab.async false

/-! Helpers. -/

/-- A buffer holding `bs`. -/
def withBuf (bs : List Byte) : State := { State.reset with buf := Memory.writeRun [] 0 bs, len := bs.length }

/-- An HDLC machine holding `bs` in framer state `h`. -/
def hdlcBuf (h : HState) (bs : List Byte) : State := { withBuf bs with protocol := .hdlc, hstate := h }

/-- A walker at the start of `bs` with one element and one structure to go. -/
def walker (bs : List Byte) : State :=
  { withBuf bs with protocol := .hdlc, tlv := { State.reset.tlv with rem := 1, remStructs := 1 } }

/-- A buffer holding `bs` as a stripped line with its tokens split. -/
def tokens (bs : List Byte) : State :=
  { withBuf bs with alt := { State.reset.alt with n := bs.length, tok := splitTokens State.reset.alt.tok bs } }

/-- A stripped line in the buffer. -/
def line (bs : List Byte) : State := { withBuf bs with alt := { State.reset.alt with n := bs.length } }

/-- A host event that stays pending. -/
def pending (ev : HostEvent) (s : State) : State := { s with env := { s.env with port := [ev] } }

/-- What the byte source holds and the draws in force. -/
def source (q : List Byte) (j : Nat) (tmo : Bool) (s : State) : State :=
  { s with env := { s.env with queue := q, budget := ⟨j - 1 + 1, Nat.le_add_left 1 _⟩, timeout := tmo } }

/-- A complete telegram with the check's result and the cursor at `n`. -/
def completed (valid : Bool) (n : Nat) : State :=
  { State.reset with agg := { Agg.init with complete := true, valid := valid, pubcur := n } }

/-- A field of the next state. -/
def next? {α : Type} (o : Host.Outcome State Fault Refusal) (f : State → α) : Option α :=
  match o with
  | .next t => some (f t)
  | _ => none

/-! Well-formedness refuses. -/

theorem test_wf_refuses_dec_digit_ten : Instr.wf (.decDigit 10) = false := by decide
theorem test_wf_refuses_dec_frac_ten : Instr.wf (.decFrac 15) = false := by decide
theorem test_wf_refuses_dec_bad_digit : Instr.wf (.decBad 0x35) = false := by decide
theorem test_wf_refuses_scale_exponent : Instr.wf (.sclScale 1 6) = false := by decide
theorem test_wf_refuses_scale_exponent_low : Instr.wf (.sclScale 1 (-5)) = false := by decide
theorem test_wf_refuses_scale_raw : Instr.wf (.sclScale 4294967296 0) = false := by decide
theorem test_wf_refuses_scale_raw_low : Instr.wf (.sclScale (-32769) 0) = false := by decide
theorem test_wf_refuses_char_terminator : Instr.wf (.aChar 0x0A) = false := by decide
theorem test_wf_refuses_skip_flag : Instr.wf (.hSkip 0x7E) = false := by decide
theorem test_wf_refuses_data_flag : Instr.wf (.hData 0x7E) = false := by decide
theorem test_wf_refuses_octs_length : Instr.wf (.octs 2 [0x41]) = false := by decide
theorem test_wf_refuses_unk_known_tag : Instr.wf (.unk 0x16) = false := by decide

/-! Every pattern decodes: words written out from the tables of file 30. -/

theorem test_decode_nop_idle : decode (.command) [0b00000000] = .ok (.nop false, []) := by rfl
theorem test_decode_nop_reserved : decode (.command) [0b00000011] = .ok (.nop true, []) := by rfl
theorem test_decode_invoke : decode (.command) [0b00000001] = .ok (.invoke, []) := by rfl
theorem test_decode_abort : decode (.command) [0b00000010] = .ok (.abort, []) := by rfl
theorem test_decode_dec_sign : decode (.tokenByte .start) [0b00101101] = .ok (.decSign, []) := by rfl
theorem test_decode_dec_digit : decode (.tokenByte .sign) [0b00110111] = .ok (.decDigit 7, []) := by rfl
theorem test_decode_dec_point : decode (.tokenByte .int) [0b00101110] = .ok (.decPoint, []) := by rfl
theorem test_decode_dec_frac : decode (.tokenByte .point) [0b00111001] = .ok (.decFrac 9, []) := by rfl
theorem test_decode_dec_bad : decode (.tokenByte .start) [0b00101110] = .ok (.decBad 0x2E, []) := by rfl
theorem test_decode_dec_end : decode (.tokenByte .frac) [] = .ok (.decEnd, []) := by rfl
theorem test_decode_a_char : decode (.asciiByte false) [0b00101111] = .ok (.aChar 0x2F, []) := by rfl
theorem test_decode_a_eol : decode (.asciiByte false) [0b00001010] = .ok (.aEol, []) := by rfl
theorem test_decode_a_ovf : decode (.asciiByte true) [0b00001010] = .ok (.aOvf 0x0A, []) := by rfl
theorem test_decode_l_cksum : decode (.line) [0b00100001, 0x0A] = .ok (.lCksum, [0x0A]) := by rfl
theorem test_decode_l_data : decode (.line) [0x31, 0b00101000, 0x0D, 0x0A] = .ok (.lData, []) := by rfl
theorem test_decode_l_other : decode (.line) [0b00101111, 0x0A] = .ok (.lOther, []) := by rfl
theorem test_decode_id_match : decode (.dataId 0) [0b00110001, 0b00101101, 0b00110000] = .ok (.idMatch 0, []) := by rfl
theorem test_decode_h_skip : decode (.hdlcByte .outsideFrame false) [0b01010101] = .ok (.hSkip 0x55, []) := by rfl
theorem test_decode_h_open : decode (.hdlcByte .outsideFrame true) [0b01111110] = .ok (.hOpen, []) := by rfl
theorem test_decode_h_data : decode (.hdlcByte .readingFrame false) [0b10100000] = .ok (.hData 0xA0, []) := by rfl
theorem test_decode_h_close : decode (.hdlcByte .readingFrame false) [0b01111110] = .ok (.hClose, []) := by rfl
theorem test_decode_h_ovf : decode (.hdlcByte .readingFrame true) [0b01111110] = .ok (.hOvf 0x7E, []) := by rfl
theorem test_decode_h_date : decode (.dateLength) [0b00001100] = .ok (.hDate 12, []) := by rfl
theorem test_decode_array : decode (.arrayTag) [0b00000001, 0b00000010] = .ok (.array 2, []) := by rfl
theorem test_decode_struct : decode (.structTag) [0b00000010, 0b00000011] = .ok (.struct 3, []) := by rfl
theorem test_decode_struct_n : decode (.element) [0b00000010, 0b00000010] = .ok (.structN 2, []) := by rfl
theorem test_decode_scale : decode (.element) [0b00001111, 0b11111101] = .ok (.scale 0xFD, []) := by rfl
theorem test_decode_unit : decode (.element) [0b00010110, 0b00011011] = .ok (.unit 27, []) := by rfl
theorem test_decode_octs : decode (.element) [0b00001001, 0b00000010, 0x41, 0x42, 0x06] = .ok (.octs 2 [0x41, 0x42], [0x06]) := by rfl
theorem test_decode_u32 : decode (.element) [0b00000110, 0x00, 0x00, 0x04, 0x8C] = .ok (.u32 1164, []) := by rfl
theorem test_decode_i16 : decode (.element) [0b00010000, 0xFF, 0xF1] = .ok (.i16 0xFFF1, []) := by rfl
theorem test_decode_u16 : decode (.element) [0b00010010, 0b00001001, 0b00000001] = .ok (.u16 2305, []) := by rfl
theorem test_decode_unk : decode (.element) [0b00000000, 0b00010001] = .ok (.unk 0, [0x11]) := by rfl
theorem test_decode_rom_cum_act_imp : decode .romKey [0b00000001, 0b00001000, 0b00000000] = .ok (.romRowCumActImp, []) := by rfl
theorem test_decode_rom_cum_act_exp : decode .romKey [0b00000010, 0b00001000, 0b00000000] = .ok (.romRowCumActExp, []) := by rfl
theorem test_decode_rom_cum_react_imp : decode .romKey [0b00000011, 0b00001000, 0b00000000] = .ok (.romRowCumReactImp, []) := by rfl
theorem test_decode_rom_cum_react_exp : decode .romKey [0b00000100, 0b00001000, 0b00000000] = .ok (.romRowCumReactExp, []) := by rfl
theorem test_decode_rom_inst_act_imp : decode .romKey [0b00000001, 0b00000111, 0b00000000] = .ok (.romRowInstActImp, []) := by rfl
theorem test_decode_rom_inst_act_exp : decode .romKey [0b00000010, 0b00000111, 0b00000000] = .ok (.romRowInstActExp, []) := by rfl
theorem test_decode_rom_inst_react_imp : decode .romKey [0b00000011, 0b00000111, 0b00000000] = .ok (.romRowInstReactImp, []) := by rfl
theorem test_decode_rom_inst_react_exp : decode .romKey [0b00000100, 0b00000111, 0b00000000] = .ok (.romRowInstReactExp, []) := by rfl
theorem test_decode_rom_inst_act_imp_l1 : decode .romKey [0b00010101, 0b00000111, 0b00000000] = .ok (.romRowInstActImpL1, []) := by rfl
theorem test_decode_rom_inst_act_imp_l2 : decode .romKey [0b00101001, 0b00000111, 0b00000000] = .ok (.romRowInstActImpL2, []) := by rfl
theorem test_decode_rom_inst_act_imp_l3 : decode .romKey [0b00111101, 0b00000111, 0b00000000] = .ok (.romRowInstActImpL3, []) := by rfl
theorem test_decode_rom_inst_act_exp_l1 : decode .romKey [0b00010110, 0b00000111, 0b00000000] = .ok (.romRowInstActExpL1, []) := by rfl
theorem test_decode_rom_inst_act_exp_l2 : decode .romKey [0b00101010, 0b00000111, 0b00000000] = .ok (.romRowInstActExpL2, []) := by rfl
theorem test_decode_rom_inst_act_exp_l3 : decode .romKey [0b00111110, 0b00000111, 0b00000000] = .ok (.romRowInstActExpL3, []) := by rfl
theorem test_decode_rom_inst_react_imp_l1 : decode .romKey [0b00010111, 0b00000111, 0b00000000] = .ok (.romRowInstReactImpL1, []) := by rfl
theorem test_decode_rom_inst_react_imp_l2 : decode .romKey [0b00101011, 0b00000111, 0b00000000] = .ok (.romRowInstReactImpL2, []) := by rfl
theorem test_decode_rom_inst_react_imp_l3 : decode .romKey [0b00111111, 0b00000111, 0b00000000] = .ok (.romRowInstReactImpL3, []) := by rfl
theorem test_decode_rom_inst_react_exp_l1 : decode .romKey [0b00011000, 0b00000111, 0b00000000] = .ok (.romRowInstReactExpL1, []) := by rfl
theorem test_decode_rom_inst_react_exp_l2 : decode .romKey [0b00101100, 0b00000111, 0b00000000] = .ok (.romRowInstReactExpL2, []) := by rfl
theorem test_decode_rom_inst_react_exp_l3 : decode .romKey [0b01000000, 0b00000111, 0b00000000] = .ok (.romRowInstReactExpL3, []) := by rfl
theorem test_decode_rom_current_l1 : decode .romKey [0b00011111, 0b00000111, 0b00000000] = .ok (.romRowCurrentL1, []) := by rfl
theorem test_decode_rom_current_l2 : decode .romKey [0b00110011, 0b00000111, 0b00000000] = .ok (.romRowCurrentL2, []) := by rfl
theorem test_decode_rom_current_l3 : decode .romKey [0b01000111, 0b00000111, 0b00000000] = .ok (.romRowCurrentL3, []) := by rfl
theorem test_decode_rom_voltage_l1 : decode .romKey [0b00100000, 0b00000111, 0b00000000] = .ok (.romRowVoltageL1, []) := by rfl
theorem test_decode_rom_voltage_l2 : decode .romKey [0b00110100, 0b00000111, 0b00000000] = .ok (.romRowVoltageL2, []) := by rfl
theorem test_decode_rom_voltage_l3 : decode .romKey [0b01001000, 0b00000111, 0b00000000] = .ok (.romRowVoltageL3, []) := by rfl

theorem test_decode_wrong_array_tag : decode .arrayTag [0x02, 0x01] = .error (.wrongTag 0x02) := by rfl
theorem test_decode_wrong_struct_tag : decode .structTag [0x01, 0x03] = .error (.wrongTag 0x01) := by rfl
theorem test_decode_truncated : decode .element [0x06, 0x00, 0xD3] = .error .truncated := by rfl
theorem test_decode_no_rom_row : decode .romKey [1, 8, 1] = .error .noRomRow := by rfl
theorem test_table_word_scale : decodeTableWord 16 0x0F05 = some (.scale 5) := by decide +kernel
theorem test_table_word_rom : decodeTableWord 24 0x480700 = some .romRowVoltageL3 := by decide +kernel

/-! Small steps. Expected values are the vectors of file 95 or worked by hand from the rule. -/

/-- The 23-byte frame of vector V-HFR-8. -/
def emptyFrame : List Byte :=
  [0x7E, 0xA0, 0x15, 0x41, 0x08, 0x83, 0x13, 0x85, 0xEB, 0xE6, 0xE7, 0x00, 0x0F, 0x40, 0x00, 0x00, 0x00, 0x00, 0x01,
   0x00, 0xDA, 0x6B, 0x7E]

/-- The holders of a structure with code 1.7.0, an unsigned value and an exponent. -/
def holders (v : Word32) (e : Int) : State :=
  { walker [] with
    alt := { State.reset.alt with key := ⟨1, 7, 0⟩ }
    tlv := { State.reset.tlv with remStructs := 1, codeFound := true, uval := v, uvalPresent := true
                                  scale := BitVec.ofInt 8 e } }

theorem test_reset_v_fac_1 :
    (next? (exec (.reset .hdlc) (completed true 18)) fun t => (t.protocol, t.agg.pubcur, t.trace)) = some (.hdlc, 28, []) := by decide +kernel
theorem test_nop_v_fac_6 :
    (next? (exec (.nop true) (completed true 18)) fun t => t.agg.pubcur) = some 18 := by decide +kernel
theorem test_invoke_v_fac_7 :
    (next? (exec .invoke (source [0x41] 9 false (completed true 2))) fun t => (t.env.queue, t.trace.length)) = some ([0x41], 2) := by decide +kernel
theorem test_invoke_discards :
    (next? (exec .invoke (completed false 28)) fun t => (t.agg.complete, t.trace)) = some (false, []) := by decide +kernel
theorem test_abort_v_fac_4 :
    (next? (exec .abort (completed true 18)) fun t => (t.agg.pubcur, t.agg.complete, t.trace)) = some (28, false, []) := by decide +kernel
theorem test_drain_v_fac_2 :
    (next? (exec .fDrain { completed true 28 with params := { Params.default with publishBatch := 10 } }) fun t => (t.agg.pubcur, t.trace.length)) = some (18, 10) := by decide +kernel
theorem test_drain_last_batch :
    (next? (exec .fDrain { completed true 8 with params := { Params.default with publishBatch := 10 } }) fun t => (t.agg.pubcur, t.agg.complete, t.trace.length)) = some (28, false, 8) := by decide +kernel
theorem test_discard :
    (next? (exec .fDiscard (completed false 28)) fun t => (t.agg.complete, t.trace)) = some (false, []) := by decide +kernel
theorem test_parse_ascii_v_alt_15 :
    (next? (exec .fParseA (source [0x0A] 5 false State.reset)) fun t => (t.agg.crc, t.len)) = some (0x0780, 0) := by decide +kernel
theorem test_parse_ascii_stops_at_cksum :
    (next? (exec .fParseA (source [0x0A, 0x41] 5 false (withBuf [0x21]))) fun t => (t.agg.complete, t.env.queue)) = some (true, [0x41]) := by decide +kernel
theorem test_parse_hdlc_stops_at_found :
    (next? (exec .fParseH (source [0x55, 0x7E, 0x7E, 0x7E] 9 false (hdlcBuf .outsideFrame []))) fun t => (t.hstate, t.len, t.env.queue)) = some (.foundFrame, 2, [0x7E]) := by decide +kernel
theorem test_parse_hdlc_timeout :
    (next? (exec .fParseH (source [] 1 true (hdlcBuf .readingFrame [0x7E, 0xA0]))) fun t => (t.hstate, t.len)) = some (.outsideFrame, 0) := by decide +kernel
theorem test_agg_init :
    (next? (exec .aggInit (completed true 3)) fun t => (t.agg.pubcur, t.agg.valid)) = some (28, false) := by decide +kernel
theorem test_agg_wr :
    (next? (exec (.aggWr 27 5) State.reset) fun t => (t.agg.slots.get 27, t.agg.slots.get 26)) = some (5, 0) := by decide +kernel
theorem test_agg_dlv_first :
    (next? (exec .aggDlv State.reset) fun t => (t.trace, t.agg.pubcur)) = some ([.deliver 0 0], 27) := by decide +kernel
theorem test_agg_dlv_last :
    (next? (exec .aggDlv (completed true 1)) fun t => (t.trace, t.agg.pubcur)) = some ([.deliver 27 0], 0) := by decide +kernel
theorem test_crca_clr :
    (next? (exec .crcaClr (State.reset.setCrc 0xBB3D)) fun t => t.agg.crc) = some 0 := by decide +kernel
theorem test_crca_upd_v_crca_8 :
    (next? (exec (.crcaUpd 0x31) State.reset) fun t => t.agg.crc) = some 0xD4C1 := by decide +kernel
theorem test_crca_upd_v_crca_9 :
    (next? (exec (.crcaUpd 0x32) (State.reset.setCrc 0xD4C1)) fun t => t.agg.crc) = some 0x4594 := by decide +kernel
theorem test_crcx_clr :
    (next? (exec .crcxClr State.reset) fun t => t.fcs) = some 0xFFFF := by decide +kernel
theorem test_crcx_upd_v_crcx_2 :
    (next? (exec (.crcxUpd 0x00) (State.reset.setFcs 0xFFFF)) fun t => t.fcs) = some 0x0F87 := by decide +kernel
theorem test_crcx_upd_v_crcx_4 :
    (next? (exec (.crcxUpd 0xFF) (State.reset.setFcs 0xFFFF)) fun t => t.fcs) = some 0x00FF := by decide +kernel
theorem test_crcx_fin :
    (next? (exec .crcxFin (State.reset.setFcs 0x0F87)) fun t => t.fcs) = some 0xF078 := by decide +kernel
theorem test_rom_lkp_v_rom_3 :
    (next? (exec (.romLkp ⟨32, 7, 0⟩) State.reset) fun t => (t.latch.romHit, t.latch.romSlot)) = some (true, 23) := by decide +kernel
theorem test_rom_lkp_v_rom_6 :
    (next? (exec (.romLkp ⟨8, 1, 0⟩) State.reset) fun t => t.latch.romHit) = some false := by decide +kernel
theorem test_dec_parse_v_dec_1 :
    (next? (exec (.decParse 0) (tokens [0x30, 0x30, 0x31, 0x32, 0x33, 0x2E, 0x34, 0x35, 0x36])) fun t => t.latch.value) = some 0x405EDD2F1A9FBE77 := by decide +kernel
theorem test_dec_parse_v_dec_21 :
    (next? (exec (.decParse 0) (tokens [0x31, 0x2E])) fun t => t.trace) = some [.report .malformedValue] := by decide +kernel
theorem test_dec_sign :
    (next? (exec .decSign State.reset) fun t => (t.dec.neg, t.dec.dstate)) = some (true, .sign) := by decide +kernel
theorem test_dec_digit :
    (next? (exec (.decDigit 3) (State.reset.setDec { Dec.init with dstate := .int, intPart := 12 })) fun t => t.dec.intPart) = some 123 := by decide +kernel
theorem test_dec_digit_v_dec_27 :
    (next? (exec (.decDigit 8) (State.reset.setDec { Dec.init with dstate := .int, intPart := 214748364 })) fun t => t.trace) = some [.report .malformedValue] := by decide +kernel
theorem test_dec_point :
    (next? (exec .decPoint (State.reset.setDec { Dec.init with dstate := .int, intPart := 5 })) fun t => (t.dec.dstate, t.dec.intPart)) = some (.point, 5) := by decide +kernel
theorem test_dec_frac :
    (next? (exec (.decFrac 6) (State.reset.setDec { Dec.init with dstate := .frac, frac := 45, nf := 2 })) fun t => (t.dec.frac, t.dec.nf)) = some (456, 3) := by decide +kernel
theorem test_dec_frac_v_dec_20 :
    (next? (exec (.decFrac 5) (State.reset.setDec { Dec.init with dstate := .frac, frac := 234, nf := 3 })) fun t => t.trace) = some [.report .malformedValue] := by decide +kernel
theorem test_dec_end_v_dec_6 :
    (next? (exec .decEnd (State.reset.setDec ⟨.frac, true, 12, 34, 2⟩)) fun t => t.latch.value) = some 0xC028AE147AE147AE := by decide +kernel
theorem test_dec_end_v_dec_4 :
    (next? (exec .decEnd (State.reset.setDec ⟨.frac, true, 0, 0, 3⟩)) fun t => t.latch.value) = some 0 := by decide +kernel
theorem test_dec_bad :
    (next? (exec (.decBad 0x6B) State.reset) fun t => t.trace) = some [.report .malformedValue] := by decide +kernel
theorem test_scl_scale_v_scl_13 :
    (next? (exec (.sclScale 9 (-3)) State.reset) fun t => t.latch.value) = some 0x3F826E978D4FDF3B := by decide +kernel
theorem test_scl_scale_v_scl_11 :
    (next? (exec (.sclScale (-32768) (-4)) State.reset) fun t => t.latch.value) = some 0xC00A36E2EB1C432D := by decide +kernel
theorem test_a_char_r191 :
    (next? (exec (.aChar 0x2F) State.reset) fun t => (t.len, t.buf, t.agg.crc)) = some (1, [(0, 0x2F)], 0xDC41) := by decide +kernel
theorem test_a_char_cksum_line_not_fed :
    (next? (exec (.aChar 0x31) (withBuf [0x21])) fun t => (t.len, t.agg.crc)) = some (2, 0) := by decide +kernel
theorem test_a_eol_data_line :
    (next? (exec .aEol (withBuf [0x31, 0x2D, 0x30, 0x3A, 0x31, 0x2E, 0x38, 0x2E, 0x30, 0x28, 0x31, 0x2E, 0x30, 0x29])) fun t => (t.agg.slots.get 0, t.len)) = some (0x3FF0000000000000, 0) := by decide +kernel
theorem test_a_eol_raise_empties :
    (next? (exec .aEol (withBuf [0x31, 0x2D, 0x30, 0x3A, 0x31, 0x2E, 0x38, 0x2E, 0x30, 0x28, 0x2A, 0x6B])) fun t => (t.trace, t.len, t.agg.crc)) = some ([.report .malformedValue], 0, 0) := by decide +kernel
theorem test_a_ovf :
    (next? (exec (.aOvf 0x0A) (withBuf [0x41])) fun t => (t.trace, t.len)) = some ([.report .frameTooLarge], 0) := by decide +kernel
theorem test_l_cksum_v_alt_1 :
    (next? (exec .lCksum ((withBuf [0x21, 0x31, 0x38, 0x43, 0x30, 0x0D, 0x0A]).setCrc 0x18C0)) fun t => (t.agg.complete, t.agg.valid)) = some (true, true) := by decide +kernel
theorem test_l_cksum_v_alt_2 :
    (next? (exec .lCksum ((withBuf [0x21, 0x30, 0x0D, 0x0A]).setCrc 0x18C0)) fun t => (t.agg.valid, t.agg.crc, t.trace)) = some (false, 0x18C0, [.report .crcMismatch]) := by decide +kernel
theorem test_hex_parse_v_hex_4 :
    (next? (exec .hexParse (withBuf [0x21, 0x46, 0x31, 0x38, 0x43, 0x30, 0x0D, 0x0A])) fun t => t.alt.hexAcc) = some 0x18C0 := by decide +kernel
theorem test_hex_parse_v_hex_6 :
    (next? (exec .hexParse (withBuf [0x21, 0x61, 0x63, 0x39, 0x36, 0x0A])) fun t => t.alt.hexAcc) = some 0xAC96 := by decide +kernel
theorem test_l_other :
    (next? (exec .lOther (withBuf [0x2F, 0x0A])) fun t => (t.len, t.trace)) = some (2, []) := by decide +kernel
theorem test_l_strip_r199 :
    (next? (exec .lStrip (withBuf [0x31, 0x2D, 0x30, 0x0D, 0x0A])) fun t => t.alt.n) = some 3 := by decide +kernel
theorem test_l_strip_lone_terminator :
    (next? (exec .lStrip (withBuf [0x0A])) fun t => t.alt.n) = some 0 := by decide +kernel
theorem test_l_data_v_tok_4 :
    (next? (exec .lData (line [0x28, 0x3A, 0x31, 0x2D, 0x30, 0x2A, 0x2A, 0x31, 0x2E, 0x38, 0x2E, 0x30, 0x29, 0x32, 0x2E, 0x35])) fun t => t.agg.slots.get 0) = some 0x4004000000000000 := by decide +kernel
theorem test_l_data_v_tok_2 :
    (next? (exec .lData (line [0x31, 0x2D, 0x30, 0x3A, 0x31, 0x2E, 0x38, 0x2E, 0x30, 0x28, 0x29])) fun t => (t.trace, t.agg.slots.get 0)) = some ([], 0) := by decide +kernel
theorem test_t_split_v_tok_5 :
    (next? (exec .tSplit (line [0x61, 0x3A, 0x62, 0x28, 0x63, 0x2A, 0x64, 0x29, 0x65])) fun t => (t.alt.tok.get 3, t.alt.tok.get 0)) = some (⟨6, 7, true⟩, ⟨0, 1, true⟩) := by decide +kernel
theorem test_t_split_two_tokens :
    (next? (exec .tSplit (line [0x61, 0x28, 0x28, 0x62])) fun t => ((t.alt.tok.get 1).start, (t.alt.tok.get 2).present)) = some (3, false) := by decide +kernel
theorem test_id_match_v_tok_6 :
    (next? (exec (.idMatch 0) (tokens [0x31, 0x2D, 0x30, 0x30])) fun t => t.alt.idMatch) = some true := by decide +kernel
theorem test_id_match_v_tok_6_no :
    (next? (exec (.idMatch 0) (tokens [0x31, 0x2D])) fun t => t.alt.idMatch) = some false := by decide +kernel
theorem test_key_parse_v_key_2 :
    (next? (exec (.keyParse 0) (tokens [0x32, 0x31, 0x2E, 0x37, 0x2E, 0x30])) fun t => (t.alt.key, t.alt.keyValid)) = some (⟨21, 7, 0⟩, true) := by decide +kernel
theorem test_key_parse_v_key_6 :
    (next? (exec (.keyParse 0) (tokens [0x32, 0x35, 0x36, 0x2E, 0x37, 0x2E, 0x30])) fun t => (t.alt.key, t.alt.keyValid)) = some (⟨0, 0, 0⟩, false) := by decide +kernel
theorem test_h_skip :
    (next? (exec (.hSkip 0x55) (hdlcBuf .outsideFrame [])) fun t => (t.hstate, t.len)) = some (.outsideFrame, 0) := by decide +kernel
theorem test_h_open :
    (next? (exec .hOpen (hdlcBuf .outsideFrame [])) fun t => (t.hstate, t.len, t.buf)) = some (.readingFrame, 1, [(0, 0x7E)]) := by decide +kernel
theorem test_h_data_r223 :
    (next? (exec (.hData 0xA0) (hdlcBuf .readingFrame [0x7E])) fun t => (t.len, t.buf.read 1)) = some (2, 0xA0) := by decide +kernel
theorem test_h_data_zero :
    (next? (exec (.hData 0x00) (hdlcBuf .readingFrame [0x7E])) fun t => (t.len, t.buf)) = some (2, [(0, 0x7E)]) := by decide +kernel
theorem test_h_close :
    (next? (exec .hClose (hdlcBuf .readingFrame [0x7E])) fun t => (t.hstate, t.len, t.buf.read 1)) = some (.foundFrame, 2, 0x7E) := by decide +kernel
theorem test_h_ovf :
    (next? (exec (.hOvf 0x7E) (hdlcBuf .readingFrame [0x7E])) fun t => (t.hstate, t.trace)) = some (.outsideFrame, [.report .frameTooLarge]) := by decide +kernel
theorem test_h_tmo :
    (next? (exec .hTmo (hdlcBuf .readingFrame [0x7E])) fun t => (t.hstate, t.len, t.trace)) = some (.outsideFrame, 0, []) := by decide +kernel
theorem test_h_validate_v_hfr_8 :
    (next? (exec .hValidate (hdlcBuf .foundFrame emptyFrame)) fun t => (t.agg.complete, t.agg.valid, t.hstate)) = some (true, true, .outsideFrame) := by decide +kernel
theorem test_h_validate_v_hfr_4 :
    (next? (exec .hValidate (hdlcBuf .foundFrame [0x7E, 0x7E])) fun t => t.trace) = some [.report .frameTooSmall] := by decide +kernel
theorem test_v_size_seventeen :
    (next? (exec .vSize (withBuf (List.replicate 17 0))) fun t => t.trace) = some [] := by decide +kernel
theorem test_v_size_sixteen :
    (next? (exec .vSize (withBuf (List.replicate 16 0))) fun t => t.trace) = some [.report .frameTooSmall] := by decide +kernel
theorem test_v_len_v_hfr_8 :
    (next? (exec .vLen (hdlcBuf .foundFrame emptyFrame)) fun t => t.trace) = some [] := by decide +kernel
theorem test_v_len_mismatch :
    (next? (exec .vLen (hdlcBuf .foundFrame (emptyFrame ++ [0]))) fun t => t.trace) = some [.report .lengthMismatch] := by decide +kernel
theorem test_v_fcs_v_crcx_6 :
    (next? (exec .vFcs (hdlcBuf .foundFrame emptyFrame)) fun t => (t.fcs, t.trace)) = some (0x6BDA, []) := by decide +kernel
theorem test_v_fcs_mismatch :
    (next? (exec .vFcs (hdlcBuf .foundFrame (emptyFrame.set 5 0))) fun t => t.trace) = some [.report .crcMismatch] := by decide +kernel
theorem test_v_ok :
    (next? (exec .vOk State.reset) fun t => (t.agg.valid, t.agg.complete)) = some (true, false) := by decide +kernel
theorem test_h_hdr :
    (next? (exec .hHdr State.reset) fun t => t.tlv.cur) = some 17 := by decide +kernel
theorem test_h_date_v_tlv_24 :
    (next? (exec (.hDate 12) { withBuf (List.replicate 18 0) with tlv := { State.reset.tlv with cur := 17 } }) fun t => t.tlv.cur) = some 30 := by decide +kernel
theorem test_h_date_v_hfr_9 :
    (next? (exec (.hDate 0) { withBuf (List.replicate 17 0) with tlv := { State.reset.tlv with cur := 17 } }) fun t => t.trace) = some [.report .truncatedStruct] := by decide +kernel
theorem test_array :
    (next? (exec (.array 2) (walker [0x01, 0x02])) fun t => (t.tlv.remStructs, t.tlv.cur)) = some (2, 2) := by decide +kernel
theorem test_array_v_hfr_11 :
    (next? (exec (.array 1) (walker [0x02, 0x01])) fun t => t.trace) = some [.report .unexpectedTag] := by decide +kernel
theorem test_h_done :
    (next? (exec .hDone (hdlcBuf .foundFrame emptyFrame)) fun t => (t.agg.complete, t.hstate, t.len)) = some (true, .outsideFrame, 0) := by decide +kernel
theorem test_struct_r252 :
    (next? (exec (.struct 3) (walker [0x02, 0x03])) fun t => (t.tlv.rem, t.tlv.cur)) = some (3, 2) := by decide +kernel
theorem test_struct_v_tlv_23 :
    (next? (exec (.struct 0x13) (walker [0x1E, 0x13])) fun t => t.trace) = some [.report .unexpectedTag] := by decide +kernel
theorem test_struct_n_r254 :
    (next? (exec (.structN 2) (walker [0x02, 0x02])) fun t => (t.tlv.rem, t.tlv.cur)) = some (2, 2) := by decide +kernel
theorem test_scale_r255 :
    (next? (exec (.scale 0xFD) (walker [0x0F, 0xFD])) fun t => (t.tlv.scale.toInt, t.tlv.scaleExplicit, t.tlv.rem)) = some (-3, true, 0) := by decide +kernel
theorem test_scale_truncated :
    (next? (exec (.scale 0xFD) (walker [0x0F])) fun t => t.trace) = some [.report .truncatedStruct] := by decide +kernel
theorem test_unit_implicit :
    (next? (exec (.unit 0x1B) (walker [0x16, 0x1B])) fun t => (t.tlv.scale.toInt, t.tlv.scaleExplicit)) = some (-3, false) := by decide +kernel
theorem test_unit_volt :
    (next? (exec (.unit 0x23) (walker [0x16, 0x23])) fun t => (t.tlv.scale.toInt, t.tlv.unit)) = some (0, 35) := by decide +kernel
theorem test_octs_r257 :
    (next? (exec (.octs 6 [1, 0, 32, 7, 0, 0xFF]) (walker [9, 6, 1, 0, 32, 7, 0, 0xFF])) fun t => (t.alt.key, t.tlv.cur, t.tlv.codeFound)) = some (⟨32, 7, 0⟩, 8, true) := by decide +kernel
theorem test_octs_other_length :
    (next? (exec (.octs 2 [0x41, 0x42]) (walker [9, 2, 0x41, 0x42])) fun t => (t.tlv.cur, t.tlv.codeFound)) = some (4, false) := by decide +kernel
theorem test_u32_r258 :
    (next? (exec (.u32 1164) (walker [6, 0, 0, 4, 0x8C])) fun t => (t.tlv.uval, t.tlv.uvalPresent, t.tlv.cur)) = some (1164, true, 5) := by decide +kernel
theorem test_u32_v_tlv_15 :
    (next? (exec (.u32 0) (walker [6, 0x96, 0xE7, 0x7E])) fun t => t.trace) = some [.report .truncatedStruct] := by decide +kernel
theorem test_i16_r259 :
    (next? (exec (.i16 0xFFF1) (walker [0x10, 0xFF, 0xF1])) fun t => t.tlv.sval.toInt) = some (-15) := by decide +kernel
theorem test_u16_r260 :
    (next? (exec (.u16 0xFFF1) (walker [0x12, 0xFF, 0xF1])) fun t => t.tlv.sval.toInt) = some 65521 := by decide +kernel
theorem test_u16_wraps :
    (next? (exec (.u16 0xFFF1) { walker [0x12, 0xFF, 0xF1] with params := { Params.default with u16WrapsSigned := true } }) fun t => t.tlv.sval.toInt) = some (-15) := by decide +kernel
theorem test_unk_v_tlv_2 :
    (next? (exec (.unk 0) (walker [0, 0x11])) fun t => (t.trace, t.tlv.cur, t.tlv.rem)) = some ([.report .unexpectedTag], 1, 0) := by decide +kernel
theorem test_commit_r262 :
    (next? (exec .commit (holders 1164 (-3))) fun t => (t.agg.slots.get 4, t.tlv.remStructs)) = some (0x3FF29FBE76C8B439, 0) := by decide +kernel
theorem test_commit_v_tlv_16 :
    (next? (exec .commit (holders 1 6)) fun t => (t.trace, t.len)) = some ([.report .malformedValue], 0) := by decide +kernel
theorem test_rom_cum_act_imp :
    (next? (exec .romRowCumActImp State.reset) fun t => (t.latch.romHit, t.latch.romSlot)) = some (true, 0) := by
  decide +kernel
theorem test_rom_cum_act_exp :
    (next? (exec .romRowCumActExp State.reset) fun t => (t.latch.romHit, t.latch.romSlot)) = some (true, 1) := by
  decide +kernel
theorem test_rom_cum_react_imp :
    (next? (exec .romRowCumReactImp State.reset) fun t => (t.latch.romHit, t.latch.romSlot)) = some (true, 2) := by
  decide +kernel
theorem test_rom_cum_react_exp :
    (next? (exec .romRowCumReactExp State.reset) fun t => (t.latch.romHit, t.latch.romSlot)) = some (true, 3) := by
  decide +kernel
theorem test_rom_inst_act_imp :
    (next? (exec .romRowInstActImp State.reset) fun t => (t.latch.romHit, t.latch.romSlot)) = some (true, 4) := by
  decide +kernel
theorem test_rom_inst_act_exp :
    (next? (exec .romRowInstActExp State.reset) fun t => (t.latch.romHit, t.latch.romSlot)) = some (true, 5) := by
  decide +kernel
theorem test_rom_inst_react_imp :
    (next? (exec .romRowInstReactImp State.reset) fun t => (t.latch.romHit, t.latch.romSlot)) = some (true, 6) := by
  decide +kernel
theorem test_rom_inst_react_exp :
    (next? (exec .romRowInstReactExp State.reset) fun t => (t.latch.romHit, t.latch.romSlot)) = some (true, 7) := by
  decide +kernel
theorem test_rom_inst_act_imp_l1 :
    (next? (exec .romRowInstActImpL1 State.reset) fun t => (t.latch.romHit, t.latch.romSlot)) = some (true, 8) := by
  decide +kernel
theorem test_rom_inst_act_imp_l2 :
    (next? (exec .romRowInstActImpL2 State.reset) fun t => (t.latch.romHit, t.latch.romSlot)) = some (true, 9) := by
  decide +kernel
theorem test_rom_inst_act_imp_l3 :
    (next? (exec .romRowInstActImpL3 State.reset) fun t => (t.latch.romHit, t.latch.romSlot)) = some (true, 10) := by
  decide +kernel
theorem test_rom_inst_act_exp_l1 :
    (next? (exec .romRowInstActExpL1 State.reset) fun t => (t.latch.romHit, t.latch.romSlot)) = some (true, 11) := by
  decide +kernel
theorem test_rom_inst_act_exp_l2 :
    (next? (exec .romRowInstActExpL2 State.reset) fun t => (t.latch.romHit, t.latch.romSlot)) = some (true, 12) := by
  decide +kernel
theorem test_rom_inst_act_exp_l3 :
    (next? (exec .romRowInstActExpL3 State.reset) fun t => (t.latch.romHit, t.latch.romSlot)) = some (true, 13) := by
  decide +kernel
theorem test_rom_inst_react_imp_l1 :
    (next? (exec .romRowInstReactImpL1 State.reset) fun t => (t.latch.romHit, t.latch.romSlot)) = some (true, 14) := by
  decide +kernel
theorem test_rom_inst_react_imp_l2 :
    (next? (exec .romRowInstReactImpL2 State.reset) fun t => (t.latch.romHit, t.latch.romSlot)) = some (true, 15) := by
  decide +kernel
theorem test_rom_inst_react_imp_l3 :
    (next? (exec .romRowInstReactImpL3 State.reset) fun t => (t.latch.romHit, t.latch.romSlot)) = some (true, 16) := by
  decide +kernel
theorem test_rom_inst_react_exp_l1 :
    (next? (exec .romRowInstReactExpL1 State.reset) fun t => (t.latch.romHit, t.latch.romSlot)) = some (true, 17) := by
  decide +kernel
theorem test_rom_inst_react_exp_l2 :
    (next? (exec .romRowInstReactExpL2 State.reset) fun t => (t.latch.romHit, t.latch.romSlot)) = some (true, 18) := by
  decide +kernel
theorem test_rom_inst_react_exp_l3 :
    (next? (exec .romRowInstReactExpL3 State.reset) fun t => (t.latch.romHit, t.latch.romSlot)) = some (true, 19) := by
  decide +kernel
theorem test_rom_current_l1 :
    (next? (exec .romRowCurrentL1 State.reset) fun t => (t.latch.romHit, t.latch.romSlot)) = some (true, 20) := by
  decide +kernel
theorem test_rom_current_l2 :
    (next? (exec .romRowCurrentL2 State.reset) fun t => (t.latch.romHit, t.latch.romSlot)) = some (true, 21) := by
  decide +kernel
theorem test_rom_current_l3 :
    (next? (exec .romRowCurrentL3 State.reset) fun t => (t.latch.romHit, t.latch.romSlot)) = some (true, 22) := by
  decide +kernel
theorem test_rom_voltage_l1 :
    (next? (exec .romRowVoltageL1 State.reset) fun t => (t.latch.romHit, t.latch.romSlot)) = some (true, 23) := by
  decide +kernel
theorem test_rom_voltage_l2 :
    (next? (exec .romRowVoltageL2 State.reset) fun t => (t.latch.romHit, t.latch.romSlot)) = some (true, 24) := by
  decide +kernel
theorem test_rom_voltage_l3 :
    (next? (exec .romRowVoltageL3 State.reset) fun t => (t.latch.romHit, t.latch.romSlot)) = some (true, 25) := by
  decide +kernel

/-! The very next step runs a placed word. -/

theorem test_placed_invoke : (next? (step (State.reset.withFetchWord 8 0x01)) fun t => t.env.port) = some [] := by
  decide +kernel
theorem test_placed_scale :
    (next? (step (State.reset.withFetchWord 16 0x0FFD)) fun t => (t.tlv.scale, t.agg.complete)) = some (0xFD, true) := by
  decide +kernel
theorem test_placed_key :
    (next? (step (State.reset.withFetchWord 24 0x480700)) fun t => (t.latch.romHit, t.latch.romSlot)) =
      some (true, 25) := by
  decide +kernel


/-! Witnesses: for each statement with hypotheses a concrete state and operands that meet them, clause by clause. -/

/-- An ASCII machine in mid-line. -/
def midLine : State := withBuf [0x31, 0x2D]

/-- An HDLC machine in mid-frame. -/
def midFrame : State := hdlcBuf .readingFrame [0x7E, 0xA0]

/-- An HDLC machine with a frame to validate. -/
def haveFrame : State := hdlcBuf .foundFrame emptyFrame

/-- The default parameters with one extra row. -/
def extraParams : Params := { Params.default with romExtra := [(⟨1, 8, 1⟩, 26)] }

theorem legal_default : LegalParams Params.default := by unfold LegalParams; decide +kernel
theorem legal_extra : LegalParams extraParams := by unfold LegalParams; decide +kernel

theorem witness_inv_mid_line : midLine.Inv := 
  ⟨legal_default, by unfold State.BufferOk; decide +kernel, by decide, by decide, by decide, by decide,
    by decide +kernel, by unfold State.FramerOk; decide +kernel⟩
theorem witness_inv_mid_frame : midFrame.Inv := 
  ⟨legal_default, by unfold State.BufferOk; decide +kernel, by decide, by decide, by decide, by decide,
    by decide +kernel, by unfold State.FramerOk; decide +kernel⟩
theorem witness_inv_have_frame : haveFrame.Inv := 
  ⟨legal_default, by unfold State.BufferOk; decide +kernel, by decide, by decide, by decide, by decide,
    by decide +kernel, by unfold State.FramerOk; decide +kernel⟩
theorem witness_inv_discard : (completed false 28).Inv := 
  ⟨legal_default, by unfold State.BufferOk; decide +kernel, by decide, by decide, by decide, by decide,
    by decide +kernel, by unfold State.FramerOk; decide +kernel⟩
theorem witness_inv_drain : (completed true 28).Inv := 
  ⟨legal_default, by unfold State.BufferOk; decide +kernel, by decide, by decide, by decide, by decide,
    by decide +kernel, by unfold State.FramerOk; decide +kernel⟩
theorem witness_inv_last_slot : (completed true 1).Inv := 
  ⟨legal_default, by unfold State.BufferOk; decide +kernel, by decide, by decide, by decide, by decide,
    by decide +kernel, by unfold State.FramerOk; decide +kernel⟩

-- InvKeptByStep, EveryEventAccepted: an INVOKE pending on a partial line
theorem witness_inv_kept : (pending (HostEvent.command 1) midLine).Inv ∧
    ∃ t, step (pending (HostEvent.command 1) midLine) = .next t :=
  ⟨⟨legal_default, by unfold State.BufferOk; decide +kernel, by decide, by decide, by decide, by decide,
    by decide +kernel, by unfold State.FramerOk; decide +kernel⟩, _, rfl⟩
theorem witness_event_accepted : midFrame.Inv ∧ midFrame.live = true := ⟨witness_inv_mid_frame, rfl⟩

-- BeforeFirstReset
theorem witness_before_reset :
    { pending (HostEvent.command 1) State.reset with live := false }.live = false ∧
    { pending (HostEvent.command 1) State.reset with live := false }.env.port = HostEvent.command 1 :: [] ∧
    (HostEvent.command 1).rst = false := by decide +kernel
theorem witness_first_reset :
    { pending { HostEvent.idle with rst := true } State.reset with live := false }.live = false ∧
    { pending { HostEvent.idle with rst := true } State.reset with live := false }.env.port =
      { HostEvent.idle with rst := true } :: [] := by decide +kernel

theorem witness_idle_before_reset : { State.reset with live := false }.live = false ∧
    { State.reset with live := false }.env.port = [] := by decide +kernel

-- StepRunsDecoded
theorem witness_step_command :
    (pending (HostEvent.command 2) midLine).env.port = HostEvent.command 2 :: [] ∧
    ((pending (HostEvent.command 2) midLine).live = true ∨ (HostEvent.command 2).rst = true) ∧
    ((HostEvent.command 2).rst = false →
      decode .command [(HostEvent.command 2).cmd.zeroExtend 8] = .ok (.abort, [])) ∧
    ∃ t, exec .abort (acceptEvent (pending (HostEvent.command 2) midLine)) = .next t :=
  ⟨rfl, .inl rfl, fun _ => rfl, _, rfl⟩
theorem witness_step_reset :
    (pending { HostEvent.idle with rst := true } midLine).env.port = { HostEvent.idle with rst := true } :: [] ∧
    Instr.reset .ascii = .reset { HostEvent.idle with rst := true }.protocol := ⟨rfl, rfl⟩

-- WaysToInitialState
theorem witness_ways_discard : (completed false 28).Inv ∧ (completed false 28).agg.complete = true ∧
    (completed false 28).agg.valid = false := ⟨witness_inv_discard, rfl, rfl⟩
theorem witness_ways_drain : (completed true 28).Inv ∧ (completed true 28).agg.complete = true ∧
    (completed true 28).agg.valid = true ∧ (completed true 28).agg.pubcur ≤ (completed true 28).params.publishBatch :=
  ⟨witness_inv_drain, rfl, rfl, by decide⟩

-- InvokeCompletes
theorem witness_invoke_ascii : midLine.Inv ∧ midLine.agg.complete = false ∧ midLine.protocol = .ascii :=
  ⟨witness_inv_mid_line, rfl, rfl⟩
theorem witness_invoke_hdlc : haveFrame.Inv ∧ haveFrame.agg.complete = false ∧ haveFrame.protocol = .hdlc :=
  ⟨witness_inv_have_frame, rfl, rfl⟩

-- DrainResult, WholeDrain
theorem witness_drain_all : (completed true 28).agg.pubcur ≤ 28 := by decide
theorem witness_drain_none : (completed true 0).agg.pubcur ≤ 28 := by decide
theorem witness_whole_drain : (completed true 28).agg.complete = true ∧ (completed true 28).agg.valid = true ∧
    (completed true 28).agg.pubcur = 28 ∧ 1 ≤ (completed true 28).params.publishBatch ∧
    (completed true 28).params.publishBatch ≤ 28 := by decide

-- DeliveryCondition, FatalErrorEndsInvoke, ConfigurationFixed, QueueConsumed
theorem witness_delivery :
    (∃ t, step (pending (HostEvent.command 1) (completed true 1)) = .next t) ∧
    (nextEvent (pending (HostEvent.command 1) (completed true 1))).rst = false ∧
    (next? (step (pending (HostEvent.command 1) (completed true 1))) fun t => t.trace) = some [.deliver 27 0] :=
  ⟨⟨_, rfl⟩, rfl, by decide +kernel⟩
theorem witness_fatal :
    (next? (exec .invoke (source [0x41] 1 false (withBuf (List.replicate 60 0x41)))) fun t => t.trace) =
      some [.report .frameTooLarge] ∧ fatalIn .ascii .frameTooLarge = true := by decide +kernel
theorem witness_configuration : (∃ t, exec .hOpen midFrame = .next t) ∧ ∀ p, Instr.hOpen ≠ .reset p :=
  ⟨⟨_, rfl⟩, fun p h => by cases h⟩
theorem witness_queue : ∃ t, exec .invoke (source [0x41, 0x42] 1 false midLine) = .next t := ⟨_, rfl⟩
theorem witness_queue_drain : (completed true 28).agg.complete = true ∧
    ∃ t, exec .invoke (completed true 28) = .next t := ⟨rfl, _, rfl⟩

-- PartialLineIntake: a new line, a checksum line's first byte, a checksum line in progress, a line in progress
theorem witness_line_new : Memory.wf State.reset.buf = true ∧ State.reset.agg.complete = false ∧
    (source [0x2F, 0x45] 2 false State.reset).env.queue = [0x2F, 0x45] ++ [] ∧
    (source [0x2F, 0x45] 2 false State.reset).env.arrivals = [] ∧
    (source [0x2F, 0x45] 2 false State.reset).env.budget.val = [(0x2F : Byte), 0x45].length ∧
    (∀ b ∈ [(0x2F : Byte), 0x45], b ≠ 0x0A) ∧ State.reset.len + 2 ≤ State.reset.params.bufCap := by decide +kernel
theorem witness_line_bang : (source [0x21, 0x45, 0x0A] 2 false State.reset).env.queue = [0x21, 0x45] ++ [0x0A] ∧
    [(0x21 : Byte), 0x45].head? = some 0x21 ∧ (∀ b ∈ [(0x21 : Byte), 0x45], b ≠ 0x0A) ∧
    State.reset.len = 0 ∧ State.reset.len + 2 ≤ State.reset.params.bufCap := by decide +kernel
theorem witness_line_cksum : Memory.wf (withBuf [0x21]).buf = true ∧ (withBuf [0x21]).len ≠ 0 ∧
    (withBuf [0x21]).buf.read 0 = 0x21 ∧ (source [0x45] 1 false (withBuf [0x21])).env.queue = [0x45] ++ [] ∧
    (withBuf [0x21]).len + 1 ≤ (withBuf [0x21]).params.bufCap := by decide +kernel
theorem witness_line_full : Memory.wf (withBuf (List.replicate 59 0x41)).buf = true ∧
    (source [0x45] 1 false (withBuf (List.replicate 59 0x41))).env.queue = [0x45] ++ [] ∧
    (withBuf (List.replicate 59 0x41)).len + 1 = (withBuf (List.replicate 59 0x41)).params.bufCap := by decide +kernel

-- FrameIntake
theorem witness_frame_intake :
    Memory.wf (hdlcBuf .outsideFrame []).buf = true ∧ (hdlcBuf .outsideFrame []).hstate = .outsideFrame ∧
    (source [0x7E, 0xA0, 0x7E, 0x55] 3 false (hdlcBuf .outsideFrame [])).env.queue = 0x7E :: ([0xA0] ++ 0x7E :: [0x55]) ∧
    (source [0x7E, 0xA0, 0x7E, 0x55] 3 false (hdlcBuf .outsideFrame [])).env.arrivals = [] ∧
    [(0xA0 : Byte)].length + 2 ≤ (source [0x7E, 0xA0, 0x7E, 0x55] 3 false (hdlcBuf .outsideFrame [])).env.budget.val ∧
    (∀ b ∈ [(0xA0 : Byte)], b ≠ 0x7E) ∧ [(0xA0 : Byte)].length + 2 ≤ (hdlcBuf .outsideFrame []).params.bufCap := by
  decide +kernel

-- CutInvariance
theorem witness_cut_ascii : midLine.agg.complete = false ∧ midLine.env.arrivals = [] := by decide
theorem witness_cut_hdlc : midFrame.hstate ≠ .foundFrame ∧ midFrame.env.arrivals = [] ∧ midFrame.env.timeout = false := by
  decide

-- DryQueue
theorem witness_dry : midFrame.env.queue = [] ∧ midFrame.env.arrivals = [] ∧
    midFrame.hstate = .readingFrame ∧ midFrame.env.timeout = false := by decide
theorem witness_dry_timeout : (source [] 1 true midFrame).env.queue = [] ∧ (source [] 1 true midFrame).env.arrivals = [] ∧
    (source [] 1 true midFrame).hstate = .readingFrame ∧
    (source [] 1 true midFrame).env.timeout = true := by decide
theorem witness_dry_outside : (hdlcBuf .outsideFrame []).env.queue = [] ∧ (hdlcBuf .outsideFrame []).env.arrivals = [] ∧
    (hdlcBuf .outsideFrame []).hstate = .outsideFrame := by decide

-- AggregateOperations
theorem witness_dlv_first : State.reset.agg.pubcur = 28 - (0 : Fin 28).val := by decide
theorem witness_dlv_last : (completed true 1).agg.pubcur = 28 - (27 : Fin 28).val := by decide

-- OneByteChangeDetected
theorem witness_byte_change : (0x28 : Byte) ≠ 0x29 := by decide

-- RomLookup: a fixed row, an extra row, a miss
theorem witness_rom_fixed : LegalParams Params.default ∧
    ∃ row ∈ romTable, row.2 = ((32, 7, 0), 23) :=
  ⟨legal_default, (.romRowVoltageL1, (32, 7, 0), 23), by decide +kernel, rfl⟩
theorem witness_rom_extra : LegalParams extraParams ∧ (⟨1, 8, 1⟩, 26) ∈ extraParams.romExtra :=
  ⟨legal_extra, by decide⟩
theorem witness_rom_miss : LegalParams extraParams ∧ (∀ row ∈ romTable, row.2.1 ≠ (8, 1, 0)) ∧
    ∀ r ∈ extraParams.romExtra, r.1 ≠ ⟨8, 1, 0⟩ := ⟨legal_extra, by decide +kernel, by decide⟩

-- DecimalSelection: the digit range at its ends and just outside it
theorem witness_digit_low : 0x30 ≤ (0x30 : Byte).toNat ∧ (0x30 : Byte).toNat ≤ 0x39 := by decide
theorem witness_digit_high : 0x30 ≤ (0x39 : Byte).toNat ∧ (0x39 : Byte).toNat ≤ 0x39 := by decide
theorem witness_not_digit_low : ¬ (0x30 ≤ (0x2F : Byte).toNat ∧ (0x2F : Byte).toNat ≤ 0x39) := by decide
theorem witness_not_digit_high : ¬ (0x30 ≤ (0x3A : Byte).toNat ∧ (0x3A : Byte).toNat ≤ 0x39) := by decide

/-- A decimal parser with integer part `i` and `f` digits of fraction read. -/
def decimal (i f : Nat) : State := State.reset.setDec { Dec.init with dstate := .frac, intPart := i, nf := f }

-- DecimalCharacters
theorem witness_digit_fits : (7 : BitVec 4).toNat ≤ 9 ∧
    (decimal 214748364 0).dec.intPart * 10 + (7 : BitVec 4).toNat ≤ (decimal 214748364 0).params.decIntMax := by
  decide +kernel
theorem witness_digit_exceeds : (8 : BitVec 4).toNat ≤ 9 ∧
    (decimal 214748364 0).params.decIntMax < (decimal 214748364 0).dec.intPart * 10 + (8 : BitVec 4).toNat := by
  decide +kernel
theorem witness_frac_third : (decimal 1 2).dec.nf < 3 := by decide
theorem witness_frac_fourth : 3 ≤ (decimal 1 3).dec.nf := by decide

-- DecimalEnd
theorem witness_dec_end : (decimal 2147483647 3).dec.dstate = .frac ∧ (decimal 2147483647 3).dec.intPart ≤ 2147483647 ∧
    1 ≤ (decimal 2147483647 3).dec.nf ∧ (decimal 2147483647 3).dec.nf ≤ 3 ∧
    (decimal 2147483647 3).dec.frac < 10 ^ (decimal 2147483647 3).dec.nf := by decide +kernel
theorem witness_dec_end_raises : State.reset.dec.dstate ≠ .frac := by decide

/-- The text `-12.5`. -/
def minusTwelve : List Byte := [0x2D, 0x31, 0x32, 0x2E, 0x35]

-- DecimalAccepted, DecimalRejected
theorem witness_decimal_accepted :
    ((tokens minusTwelve).alt.tok.get 0).present = true ∧
    ((tokens minusTwelve).alt.tok.get 0).stop ≤ (tokens minusTwelve).len ∧
    (tokens minusTwelve).params.decIntMax ≤ 2147483647 ∧
    DecimalParts (tokens minusTwelve).params.decIntMax
      ((tokens minusTwelve).bytes ((tokens minusTwelve).alt.tok.get 0).start ((tokens minusTwelve).alt.tok.get 0).stop)
      true [0x31, 0x32] [0x35] := by
  unfold DecimalParts AllDigits; decide +kernel
/-- A text without a point is no value text. -/
theorem no_point_no_parts {cap : Nat} {t : List Byte} (h : (0x2E : Byte) ∉ t) (neg : Bool) (ip fp : List Byte) :
    ¬ DecimalParts cap t neg ip fp := by
  rintro ⟨rfl, -⟩
  exact h (by simp [decimalText])
theorem witness_decimal_rejected :
    ((tokens [0x31, 0x32]).alt.tok.get 0).present = true ∧
    ((tokens [0x31, 0x32]).alt.tok.get 0).start < ((tokens [0x31, 0x32]).alt.tok.get 0).stop ∧
    ((tokens [0x31, 0x32]).alt.tok.get 0).stop ≤ (tokens [0x31, 0x32]).len ∧
    ∀ (neg : Bool) (ip fp : List Byte), ¬ DecimalParts (tokens [0x31, 0x32]).params.decIntMax
      ((tokens [0x31, 0x32]).bytes ((tokens [0x31, 0x32]).alt.tok.get 0).start ((tokens [0x31, 0x32]).alt.tok.get 0).stop)
      neg ip fp :=
  ⟨by decide +kernel, by decide +kernel, by decide +kernel, no_point_no_parts (by decide +kernel)⟩

-- ScaleResult
theorem witness_scale_largest : -32768 ≤ (4294967295 : Int) ∧ (4294967295 : Int) ≤ 4294967295 ∧ -4 ≤ (5 : Int) ∧
    (5 : Int) ≤ 5 := by decide
theorem witness_scale_smallest : -32768 ≤ (-32768 : Int) ∧ (-32768 : Int) ≤ 4294967295 ∧ -4 ≤ (-4 : Int) ∧
    (-4 : Int) ≤ 5 := by decide

-- SlotValuesOrdinary
theorem witness_slot_values : LegalParams State.reset.params ∧ State.reset.SlotsOrdinary ∧
    ∃ t, step State.reset = .next t :=
  ⟨legal_default, fun i => .inl (by revert i; decide +kernel), _, rfl⟩

-- CharStored, EolDispatch
theorem witness_char_stored : Memory.wf (withBuf (List.replicate 59 0x41)).buf = true ∧
    (withBuf (List.replicate 59 0x41)).len < (withBuf (List.replicate 59 0x41)).params.bufCap ∧ (0x0D : Byte) ≠ 0x0A := by
  decide +kernel
theorem witness_eol : Memory.wf midLine.buf = true ∧ midLine.len < midLine.params.bufCap := by decide +kernel
theorem witness_eol_cksum : Memory.wf (withBuf [0x21]).buf = true ∧ (withBuf [0x21]).len < (withBuf [0x21]).params.bufCap := by
  decide +kernel

-- OtherAndStrip
theorem witness_strip_one : 1 ≤ (withBuf [0x0A]).len := by decide

-- ChecksumLine
theorem witness_hex_classes :
    [(0x2F : Byte), 0x30, 0x39, 0x3A, 0x40, 0x41, 0x46, 0x47, 0x60, 0x61, 0x66, 0x67].map hexValue =
      [none, some 0, some 9, none, none, some 10, some 15, none, none, some 10, some 15, none] := by decide +kernel
theorem witness_hex : (withBuf [0x21, 0x31, 0x44, 0x0D]).bytes 1 4 = [0x31, 0x44] ++ [0x0D] ∧
    [(0x31 : Byte), 0x44].map hexValue = [(1 : BitVec 4), 13].map some ∧
    hexValue 0x0D = none := by decide +kernel
theorem witness_hex_none : (withBuf [0x21, 0x0D]).bytes 1 2 = [] ++ [0x0D] ∧ hexValue 0x0D = none := by decide +kernel

-- TokensAreRuns
theorem witness_tokens : (line minusTwelve).alt.n ≤ (line minusTwelve).len := by decide +kernel

-- IdMatched
theorem witness_id : State.reset.params.dataId = [0x31, 0x2D, 0x30] ∧
    ((tokens [0x31, 0x2D, 0x30]).alt.tok.get 0).present = true ∧
    ((tokens [0x31, 0x2D, 0x30]).alt.tok.get 0).stop ≤ (tokens [0x31, 0x2D, 0x30]).len := by decide +kernel

/-- The text `1.8.255`. -/
def codeText : List Byte := [0x31, 0x2E, 0x38, 0x2E, 0x32, 0x35, 0x35]

-- KeyParsed
theorem witness_key_valid :
    ((tokens codeText).alt.tok.get 0).present = true ∧ ((tokens codeText).alt.tok.get 0).stop ≤ (tokens codeText).len ∧
    (tokens codeText).bytes ((tokens codeText).alt.tok.get 0).start ((tokens codeText).alt.tok.get 0).stop =
      [0x31] ++ [0x2E] ++ [0x38] ++ [0x2E] ++ [0x32, 0x35, 0x35] ∧
    KeySegment [0x31] ∧ KeySegment [0x38] ∧ KeySegment [0x32, 0x35, 0x35] := by
  unfold KeySegment AllDigits; decide +kernel
/-- A text without a point is no register code. -/
theorem no_point_no_code {t g0 g1 g2 : List Byte} (h : (0x2E : Byte) ∉ t) :
    t ≠ g0 ++ [0x2E] ++ g1 ++ [0x2E] ++ g2 := by
  rintro rfl
  exact h (by simp)
theorem witness_key_invalid :
    ((tokens [0x31]).alt.tok.get 0).present = true ∧ ((tokens [0x31]).alt.tok.get 0).stop ≤ (tokens [0x31]).len ∧
    ∀ g0 g1 g2, (tokens [0x31]).bytes ((tokens [0x31]).alt.tok.get 0).start ((tokens [0x31]).alt.tok.get 0).stop =
        g0 ++ [0x2E] ++ g1 ++ [0x2E] ++ g2 → ¬ (KeySegment g0 ∧ KeySegment g1 ∧ KeySegment g2) :=
  ⟨by decide +kernel, by decide +kernel, fun _ _ _ e => absurd e (no_point_no_code (by decide +kernel))⟩

/-- The line `1-0:1.8.0(1.5*`, its parts and its relatives. -/
def dataText (code value : List Byte) : List Byte :=
  [0x31, 0x2D, 0x30] ++ [0x3A] ++ code ++ [0x28] ++ value ++ [0x2A]

/-- The same three tokens with the delimiters interchanged, repeated and leading. -/
def mixedText (code value : List Byte) : List Byte :=
  [0x28, 0x3A, 0x31, 0x2D, 0x30, 0x2A, 0x2A] ++ code ++ [0x29, 0x3A] ++ value

theorem witness_data_writes :
    (line (dataText [0x31, 0x2E, 0x38, 0x2E, 0x30] [0x31, 0x2E, 0x35])).alt.n ≤ (line (dataText [0x31, 0x2E, 0x38, 0x2E, 0x30] [0x31, 0x2E, 0x35])).len ∧
    lineTokens ((line (dataText [0x31, 0x2E, 0x38, 0x2E, 0x30] [0x31, 0x2E, 0x35])).bytes 0 (line (dataText [0x31, 0x2E, 0x38, 0x2E, 0x30] [0x31, 0x2E, 0x35])).alt.n) =
      [0x31, 0x2D, 0x30] :: [0x31, 0x2E, 0x38, 0x2E, 0x30] :: [0x31, 0x2E, 0x35] :: [] ∧
    State.reset.params.dataId <+: [0x31, 0x2D, 0x30] ∧ CodeText [0x31, 0x2E, 0x38, 0x2E, 0x30] ⟨1, 8, 0⟩ ∧
    romSlotOf State.reset.params.romExtra ⟨1, 8, 0⟩ = some 0 ∧ State.reset.params.decIntMax ≤ 2147483647 ∧
    DecimalParts State.reset.params.decIntMax [0x31, 0x2E, 0x35] false [0x31] [0x35] :=
  ⟨by decide +kernel, by decide +kernel, by decide,
    ⟨[0x31], [0x38], [0x30], by decide, by unfold KeySegment AllDigits; decide,
      by unfold KeySegment AllDigits; decide, by unfold KeySegment AllDigits; decide, by decide⟩,
    by decide +kernel, by decide, by unfold DecimalParts AllDigits; decide⟩
theorem witness_data_writes_mixed :
    (line (mixedText [0x31, 0x2E, 0x38, 0x2E, 0x30] [0x31, 0x2E, 0x35])).alt.n ≤ (line (mixedText [0x31, 0x2E, 0x38, 0x2E, 0x30] [0x31, 0x2E, 0x35])).len ∧
    lineTokens ((line (mixedText [0x31, 0x2E, 0x38, 0x2E, 0x30] [0x31, 0x2E, 0x35])).bytes 0 (line (mixedText [0x31, 0x2E, 0x38, 0x2E, 0x30] [0x31, 0x2E, 0x35])).alt.n) =
      [0x31, 0x2D, 0x30] :: [0x31, 0x2E, 0x38, 0x2E, 0x30] :: [0x31, 0x2E, 0x35] :: [] ∧
    State.reset.params.dataId <+: [0x31, 0x2D, 0x30] ∧ CodeText [0x31, 0x2E, 0x38, 0x2E, 0x30] ⟨1, 8, 0⟩ ∧
    romSlotOf State.reset.params.romExtra ⟨1, 8, 0⟩ = some 0 ∧ State.reset.params.decIntMax ≤ 2147483647 ∧
    DecimalParts State.reset.params.decIntMax [0x31, 0x2E, 0x35] false [0x31] [0x35] :=
  ⟨by decide +kernel, by decide +kernel, by decide,
    ⟨[0x31], [0x38], [0x30], by decide, by unfold KeySegment AllDigits; decide,
      by unfold KeySegment AllDigits; decide, by unfold KeySegment AllDigits; decide, by decide⟩,
    by decide +kernel, by decide, by unfold DecimalParts AllDigits; decide⟩
theorem witness_data_ignored_unknown :
    (line (dataText [0x31, 0x2E, 0x38, 0x2E, 0x31] [0x78])).alt.n ≤ (line (dataText [0x31, 0x2E, 0x38, 0x2E, 0x31] [0x78])).len ∧
    lineTokens ((line (dataText [0x31, 0x2E, 0x38, 0x2E, 0x31] [0x78])).bytes 0 (line (dataText [0x31, 0x2E, 0x38, 0x2E, 0x31] [0x78])).alt.n) =
      [0x31, 0x2D, 0x30] :: [0x31, 0x2E, 0x38, 0x2E, 0x31] :: [0x78] :: [] ∧
    CodeText [0x31, 0x2E, 0x38, 0x2E, 0x31] ⟨1, 8, 1⟩ ∧ romSlotOf State.reset.params.romExtra ⟨1, 8, 1⟩ = none :=
  ⟨by decide +kernel, by decide +kernel, 
    ⟨[0x31], [0x38], [0x31], by decide, by unfold KeySegment AllDigits; decide,
      by unfold KeySegment AllDigits; decide, by unfold KeySegment AllDigits; decide, by decide⟩,
    by decide +kernel⟩
theorem witness_data_ignored_code :
    (line (mixedText [0x31] [0x78])).alt.n ≤ (line (mixedText [0x31] [0x78])).len ∧
    lineTokens ((line (mixedText [0x31] [0x78])).bytes 0 (line (mixedText [0x31] [0x78])).alt.n) =
      [0x31, 0x2D, 0x30] :: [0x31] :: [0x78] :: [] ∧
    ∀ key, ¬ CodeText [0x31] key :=
  ⟨by decide +kernel, by decide +kernel, fun _ ⟨_, _, _, e, _⟩ => no_point_no_code (by decide) e⟩
theorem witness_data_ignored_ident :
    (line [0x30, 0x3A, 0x31, 0x28, 0x78]).alt.n ≤ (line [0x30, 0x3A, 0x31, 0x28, 0x78]).len ∧
    lineTokens ((line [0x30, 0x3A, 0x31, 0x28, 0x78]).bytes 0 (line [0x30, 0x3A, 0x31, 0x28, 0x78]).alt.n) =
      [0x30] :: [0x31] :: [0x78] :: [] ∧
    ¬ State.reset.params.dataId <+: [0x30] :=
  ⟨by decide +kernel, by decide +kernel, by decide⟩
theorem witness_data_ignored_two :
    (line [0x31, 0x2D, 0x30, 0x3A, 0x31, 0x28, 0x29]).alt.n ≤ (line [0x31, 0x2D, 0x30, 0x3A, 0x31, 0x28, 0x29]).len ∧
    lineTokens ((line [0x31, 0x2D, 0x30, 0x3A, 0x31, 0x28, 0x29]).bytes 0 (line [0x31, 0x2D, 0x30, 0x3A, 0x31, 0x28, 0x29]).alt.n) =
      [[0x31, 0x2D, 0x30], [0x31]] ∧
    [[(0x31 : Byte), 0x2D, 0x30], [0x31]].length < 3 :=
  ⟨by decide +kernel, by decide +kernel, by decide⟩
theorem witness_data_ignored_none :
    (line [0x28, 0x29]).alt.n ≤ (line [0x28, 0x29]).len ∧
    lineTokens ((line [0x28, 0x29]).bytes 0 (line [0x28, 0x29]).alt.n) =
      [] ∧
    ([] : List (List Byte)).length < 3 :=
  ⟨by decide +kernel, by decide +kernel, by decide⟩
theorem witness_data_malformed :
    (line (dataText [0x31, 0x2E, 0x38, 0x2E, 0x30] [0x31])).alt.n ≤ (line (dataText [0x31, 0x2E, 0x38, 0x2E, 0x30] [0x31])).len ∧
    lineTokens ((line (dataText [0x31, 0x2E, 0x38, 0x2E, 0x30] [0x31])).bytes 0 (line (dataText [0x31, 0x2E, 0x38, 0x2E, 0x30] [0x31])).alt.n) =
      [0x31, 0x2D, 0x30] :: [0x31, 0x2E, 0x38, 0x2E, 0x30] :: [0x31] :: [] ∧
    State.reset.params.dataId <+: [0x31, 0x2D, 0x30] ∧ CodeText [0x31, 0x2E, 0x38, 0x2E, 0x30] ⟨1, 8, 0⟩ ∧
    romSlotOf State.reset.params.romExtra ⟨1, 8, 0⟩ = some 0 ∧
    ∀ (neg : Bool) (ip fp : List Byte), ¬ DecimalParts State.reset.params.decIntMax [0x31] neg ip fp :=
  ⟨by decide +kernel, by decide +kernel, by decide,
    ⟨[0x31], [0x38], [0x30], by decide, by unfold KeySegment AllDigits; decide,
      by unfold KeySegment AllDigits; decide, by unfold KeySegment AllDigits; decide, by decide⟩,
    by decide +kernel, no_point_no_parts (by decide)⟩

-- FramerStores, OverflowAndBadCharacter
theorem witness_framer_stores : Memory.wf midFrame.buf = true ∧ midFrame.len < midFrame.params.bufCap ∧
    (0x7D : Byte) ≠ 0x7E := by decide +kernel
theorem witness_overflow :
    (withBuf (List.replicate 60 0x41)).params.bufCap ≤ (withBuf (List.replicate 60 0x41)).len := by decide +kernel

-- FramerRegistersAndChecks, FrameCheck, ValidateChecks
theorem witness_size_ok : 17 ≤ (withBuf (List.replicate 17 0)).len := by decide
theorem witness_size_small : (withBuf (List.replicate 16 0)).len < 17 := by decide
theorem witness_length_ok : 17 ≤ haveFrame.len ∧
    (haveFrame.buf.read 1).toNat % 16 * 256 + (haveFrame.buf.read 2).toNat = haveFrame.len - 2 := by decide +kernel
theorem witness_length_three : 3 ≤ (withBuf [0x7E, 0x00, 0x01]).len ∧
    ((withBuf [0x7E, 0x00, 0x01]).buf.read 1).toNat % 16 * 256 + ((withBuf [0x7E, 0x00, 0x01]).buf.read 2).toNat =
      (withBuf [0x7E, 0x00, 0x01]).len - 2 := by decide +kernel
theorem witness_length_mismatch : 17 ≤ (withBuf (List.replicate 17 0)).len ∧
    ((withBuf (List.replicate 17 0)).buf.read 1).toNat % 16 * 256 + ((withBuf (List.replicate 17 0)).buf.read 2).toNat ≠
      (withBuf (List.replicate 17 0)).len - 2 := by decide +kernel
theorem witness_check_ok : 17 ≤ haveFrame.len ∧
    crcx ((List.range (haveFrame.len - 4)).map fun i => haveFrame.buf.read (i + 1)) = storedCheck haveFrame := by
  decide +kernel
theorem witness_check_bad : 17 ≤ (hdlcBuf .foundFrame (emptyFrame.set 5 0)).len ∧
    ((hdlcBuf .foundFrame (emptyFrame.set 5 0)).buf.read 1).toNat % 16 * 256 +
      ((hdlcBuf .foundFrame (emptyFrame.set 5 0)).buf.read 2).toNat = (hdlcBuf .foundFrame (emptyFrame.set 5 0)).len - 2 ∧
    crcx ((List.range ((hdlcBuf .foundFrame (emptyFrame.set 5 0)).len - 4)).map fun i =>
      (hdlcBuf .foundFrame (emptyFrame.set 5 0)).buf.read (i + 1)) ≠
        storedCheck (hdlcBuf .foundFrame (emptyFrame.set 5 0)) := by decide +kernel
theorem witness_empty_frame : (haveFrame.buf.read 17).toNat + 20 ≤ haveFrame.len ∧
    haveFrame.buf.read ((haveFrame.buf.read 17).toNat + 18) = 0x01 ∧
    haveFrame.buf.read ((haveFrame.buf.read 17).toNat + 19) = 0x00 ∧ 17 ≤ haveFrame.len ∧
    (haveFrame.buf.read 1).toNat % 16 * 256 + (haveFrame.buf.read 2).toNat = haveFrame.len - 2 ∧
    crcx ((List.range (haveFrame.len - 4)).map fun i => haveFrame.buf.read (i + 1)) = storedCheck haveFrame := by
  decide +kernel

-- DateAndRequiredTags: at the end of the frame, a wrong tag, a tag cut off, a tag and its count
theorem witness_tag_past_end : (walker []).len < (walker []).tlv.cur + 1 := by decide
theorem witness_tag_wrong : (walker [0x03]).tlv.cur + 1 ≤ (walker [0x03]).len ∧
    (walker [0x03]).buf.read (walker [0x03]).tlv.cur ≠ 0x01 ∧
    (walker [0x03]).buf.read (walker [0x03]).tlv.cur ≠ 0x02 := by decide +kernel
theorem witness_array_cut : (walker [0x01]).tlv.cur + 1 = (walker [0x01]).len ∧
    (walker [0x01]).buf.read (walker [0x01]).tlv.cur = 0x01 := by decide +kernel
theorem witness_struct_cut : (walker [0x02]).tlv.cur + 1 = (walker [0x02]).len ∧
    (walker [0x02]).buf.read (walker [0x02]).tlv.cur = 0x02 := by decide +kernel
theorem witness_array : (walker [0x01, 0x02]).tlv.cur + 2 ≤ (walker [0x01, 0x02]).len ∧
    (walker [0x01, 0x02]).buf.read (walker [0x01, 0x02]).tlv.cur = 0x01 := by decide +kernel
theorem witness_struct : (walker [0x02, 0x03]).tlv.cur + 2 ≤ (walker [0x02, 0x03]).len ∧
    (walker [0x02, 0x03]).buf.read (walker [0x02, 0x03]).tlv.cur = 0x02 := by decide +kernel

-- ElementResults, OctetString, TruncatedElements
theorem witness_elements : 1 ≤ (walker [6, 0, 0, 4, 0x8C]).tlv.rem ∧
    (walker [6, 0, 0, 4, 0x8C]).tlv.cur + 5 ≤ (walker [6, 0, 0, 4, 0x8C]).len ∧
    (walker [0x12, 9, 1]).tlv.cur + 3 ≤ (walker [0x12, 9, 1]).len ∧ 1 ≤ (walker [0x12, 9, 1]).tlv.rem ∧
    (walker [0x0F, 5]).tlv.cur + 2 ≤ (walker [0x0F, 5]).len ∧ 1 ≤ (walker [0x0F, 5]).tlv.rem := by decide
theorem witness_octs_code : 1 ≤ (walker [9, 6, 1, 0, 1, 8, 0, 0xFF]).tlv.rem ∧
    [(1 : Byte), 0, 1, 8, 0, 0xFF].length = (6 : Byte).toNat ∧
    (walker [9, 6, 1, 0, 1, 8, 0, 0xFF]).tlv.cur + 8 ≤ (walker [9, 6, 1, 0, 1, 8, 0, 0xFF]).len := by decide
theorem witness_octs_empty : 1 ≤ (walker [9, 0]).tlv.rem ∧ ([] : List Byte).length = (0 : Byte).toNat ∧
    ([] : List Byte).length ≠ 6 ∧ (walker [9, 0]).tlv.cur + 2 + ([] : List Byte).length ≤ (walker [9, 0]).len := by decide
theorem witness_octs_cut : 1 ≤ (walker [9, 1]).tlv.rem ∧ [(0x41 : Byte)].length = (1 : Byte).toNat ∧
    (walker [9, 1]).len < (walker [9, 1]).tlv.cur + 2 + [(0x41 : Byte)].length := by decide
theorem witness_elements_cut : (walker [0x0F]).len < (walker [0x0F]).tlv.cur + 2 ∧
    (walker [0x10, 0]).len < (walker [0x10, 0]).tlv.cur + 3 ∧
    (walker [6, 0, 0, 4]).len < (walker [6, 0, 0, 4]).tlv.cur + 5 := by decide

-- CommitResult
theorem witness_commit_none : (walker []).tlv.remStructs ≠ 0 ∧ (walker []).tlv.codeFound = false := by decide
/-- The same holders with a code the ROM does not know, 8.1.0. -/
def unknownHolders : State := { holders 1 0 with alt := { (holders 1 0).alt with key := ⟨8, 1, 0⟩ } }
theorem witness_commit_miss : unknownHolders.tlv.remStructs ≠ 0 ∧ unknownHolders.tlv.codeFound = true ∧
    romSlotOf unknownHolders.params.romExtra unknownHolders.alt.key = none := by decide +kernel
theorem witness_commit_low : (holders 1 (-4)).tlv.remStructs ≠ 0 ∧ (holders 1 (-4)).tlv.codeFound = true ∧
    romSlotOf (holders 1 (-4)).params.romExtra (holders 1 (-4)).alt.key = some 4 ∧
    -4 ≤ (holders 1 (-4)).tlv.scale.toInt ∧ (holders 1 (-4)).tlv.scale.toInt ≤ 5 := by decide +kernel
theorem witness_commit_high : (holders 1 5).tlv.codeFound = true ∧
    romSlotOf (holders 1 5).params.romExtra (holders 1 5).alt.key = some 4 ∧
    -4 ≤ (holders 1 5).tlv.scale.toInt ∧ (holders 1 5).tlv.scale.toInt ≤ 5 := by decide +kernel
theorem witness_commit_out : (holders 1 6).tlv.remStructs ≠ 0 ∧ (holders 1 6).tlv.codeFound = true ∧
    romSlotOf (holders 1 6).params.romExtra (holders 1 6).alt.key = some 4 ∧
    ¬ (-4 ≤ (holders 1 6).tlv.scale.toInt ∧ (holders 1 6).tlv.scale.toInt ≤ 5) := by decide +kernel

/-- A buffered frame around the bytes from index 3 on, its length and check as the rules require. -/
def closed (rest : List Byte) (last : Byte) : State :=
  let body := [(0xA0 : Byte), BitVec.ofNat 8 (rest.length + 4)] ++ rest
  hdlcBuf .foundFrame ([0x7E] ++ body ++ [(crcx body).extractLsb' 0 8, (crcx body).extractLsb' 8 8, last])

/-- The three checks of a frame pass. -/
def Passes (s : State) : Prop :=
  17 ≤ s.len ∧ (s.buf.read 1).toNat % 16 * 256 + (s.buf.read 2).toNat = s.len - 2 ∧
  crcx ((List.range (s.len - 4)).map fun i => s.buf.read (i + 1)) = storedCheck s

theorem witness_no_date : Passes (closed (List.replicate 11 0) 0x7E) ∧ (closed (List.replicate 11 0) 0x7E).len = 17 := by
  unfold Passes; decide +kernel
theorem witness_date_overrun : Passes (closed (List.replicate 14 0 ++ [200]) 0x7E) ∧
    18 ≤ (closed (List.replicate 14 0 ++ [200]) 0x7E).len ∧ (closed (List.replicate 14 0 ++ [200]) 0x7E).len ≤
      ((closed (List.replicate 14 0 ++ [200]) 0x7E).buf.read 17).toNat + 18 := by
  unfold Passes; decide +kernel
theorem witness_array_tag : Passes (closed (List.replicate 14 0 ++ [0, 2, 0]) 0x7E) ∧
    ((closed (List.replicate 14 0 ++ [0, 2, 0]) 0x7E).buf.read 17).toNat + 18 <
      (closed (List.replicate 14 0 ++ [0, 2, 0]) 0x7E).len ∧
    (closed (List.replicate 14 0 ++ [0, 2, 0]) 0x7E).buf.read 18 ≠ 0x01 := by
  unfold Passes; decide +kernel
theorem witness_array_count_cut : Passes (closed (List.replicate 14 0 ++ [2]) 0x01) ∧
    ((closed (List.replicate 14 0 ++ [2]) 0x01).buf.read 17).toNat + 18 + 1 =
      (closed (List.replicate 14 0 ++ [2]) 0x01).len ∧
    (closed (List.replicate 14 0 ++ [2]) 0x01).buf.read 20 = 0x01 := by
  unfold Passes; decide +kernel

-- FrameWalk: a structure with a code and a value, and one with an unknown element
def walkFrame : State :=
  hdlcBuf .foundFrame <|
    [0x7E, 0xA0, 0x27, 0x41, 0x08, 0x83, 0x13, 0x85, 0xEB, 0xE6, 0xE7, 0x00, 0x0F, 0x40, 0x00, 0x00, 0x00, 0x00] ++
    [0x01, 0x02] ++ [0x02, 0x02, 0x09, 0x06, 0x01, 0x00, 0x01, 0x07, 0x00, 0xFF, 0x06, 0x00, 0x00, 0x04, 0x8C] ++
    [0x02, 0x01, 0x11] ++ [0x9D, 0xA3, 0x7E]

theorem witness_walk_frame : Passes walkFrame ∧ (walkFrame.buf.read 17).toNat + 20 ≤ walkFrame.len ∧
    walkFrame.buf.read ((walkFrame.buf.read 17).toNat + 18) = 0x01 := by
  unfold Passes; decide +kernel
theorem test_walk_frame :
    (next? (exec .hValidate walkFrame) fun t => (t.agg.complete, t.agg.valid, t.agg.slots.get 4, t.trace)) =
      some (true, true, 0x4092300000000000, [.report .unexpectedTag]) := by decide +kernel
theorem witness_walk_completes : ∃ t, Walk .structureStart (walker [2, 2, 9, 6, 1, 0, 1, 7, 0, 0xFF, 0x10, 0, 100]) t ∧
    t.agg.complete = true ∧ t.agg.slots.get 4 = 0x4059000000000000 :=
  ⟨_, .openStructure (by decide) rfl rfl <| .element (by decide) rfl rfl <| .element (by decide) rfl rfl <|
    .commit (by decide) (fun _ => by decide +kernel) rfl <| .done (by decide +kernel), rfl, by decide +kernel⟩

-- FatalErrorEndsInvoke: an UnexpectedTag that aborts
theorem witness_fatal_tag :
    (next? (exec .invoke (closed (List.replicate 14 0 ++ [0, 2, 0]) 0x7E)) fun t => (t.trace, t.agg.complete, t.len)) =
      some ([.report .unexpectedTag], false, 0) := by decide +kernel

-- SequencingRunsDecoded
theorem witness_sequencing_ascii : decode (.asciiByte (decide (midLine.params.bufCap ≤ midLine.len))) [0x0A] =
    .ok (.aEol, []) := by rfl
theorem witness_sequencing_hdlc :
    decode (.hdlcByte midFrame.hstate (decide (midFrame.params.bufCap ≤ midFrame.len))) [0x7E] = .ok (.hClose, []) := by
  rfl
theorem witness_sequencing_token : decode (.tokenByte (decimal 1 2).dec.dstate) [0x35] = .ok (.decFrac 5, []) := by rfl
theorem witness_sequencing_element :
    decode .element ((walker [0x12, 9, 1]).bytes (walker [0x12, 9, 1]).tlv.cur (walker [0x12, 9, 1]).len) =
      .ok (.u16 0x0901, []) := by rfl
theorem witness_sequencing_cut :
    decode .element ((walker [0x12, 9]).bytes (walker [0x12, 9]).tlv.cur (walker [0x12, 9]).len) = .error .truncated := by
  rfl
theorem witness_sequencing_struct :
    decode .structTag ((walker [2, 3]).bytes (walker [2, 3]).tlv.cur (walker [2, 3]).len) = .ok (.struct 3, []) := by rfl
theorem witness_sequencing_array :
    decode .arrayTag ((walker [1, 3]).bytes (walker [1, 3]).tlv.cur (walker [1, 3]).len) = .ok (.array 3, []) := by rfl

theorem witness_sequencing_date :
    decode .dateLength ((walker [12]).bytes (walker [12]).tlv.cur (walker [12]).len) = .ok (.hDate 12, []) := by rfl
theorem witness_sequencing_line_cksum :
    decode .line ((withBuf [0x21, 0x0A]).bytes 0 (withBuf [0x21, 0x0A]).len) = .ok (.lCksum, [0x0A]) := by rfl
theorem witness_sequencing_line_data :
    decode .line ((withBuf [0x41, 0x28, 0x0A]).bytes 0 (withBuf [0x41, 0x28, 0x0A]).len) = .ok (.lData, []) := by rfl
theorem witness_sequencing_line_other :
    decode .line ((withBuf [0x0A]).bytes 0 (withBuf [0x0A]).len) = .ok (.lOther, []) := by rfl
theorem witness_sequencing_end : decode (.tokenByte (decimal 1 2).dec.dstate) [] = .ok (.decEnd, []) := by rfl
theorem witness_sequencing_ident : ((tokens [0x31, 0x2D, 0x30, 0x30]).alt.tok.get 0).present = true ∧
    ((tokens [0x31, 0x2D, 0x30, 0x30]).alt.tok.get 0).stop ≤ (tokens [0x31, 0x2D, 0x30, 0x30]).len ∧
    (tokens [0x31, 0x2D, 0x30, 0x30]).params.dataId = Params.default.dataId ∧
    decode (.dataId 0) ((tokens [0x31, 0x2D, 0x30, 0x30]).bytes 0 4) = .ok (.idMatch 0, [0x30]) ∧
    decode (.dataId 0) ((tokens [0x31, 0x2D]).bytes 0 2) = .error .truncated :=
  ⟨by decide +kernel, by decide +kernel, rfl, rfl, rfl⟩
theorem witness_sequencing_key : decode .romKey [32, 7, 0] = .ok (.romRowVoltageL1, []) := by rfl

-- DecodeOfEncode, EncodeOfDecode, WordsDecode
theorem witness_encode : Instr.wf (.octs 1 [0x41]) = true ∧ Instr.appearsIn (.octs 1 [0x41]) .element = true := by decide
theorem witness_decode : decode .element [9, 1, 0x41, 6] = .ok (.octs 1 [0x41], [6]) ∧
    encode (.octs 1 [0x41]) = some [9, 1, 0x41] := ⟨rfl, rfl⟩
theorem witness_unknown_tag : (0x01 : Byte) ∉ ([0x02, 0x06, 0x09, 0x0F, 0x10, 0x12, 0x16] : List Byte) := by decide

-- BufferKept
theorem witness_buffer : 1 ≤ midFrame.params.bufCap ∧ midFrame.BufferOk ∧ ∃ t, exec (.hData 0x00) midFrame = .next t :=
  ⟨by decide, by unfold State.BufferOk; decide +kernel, _, rfl⟩

-- UndefinedUsesStop
theorem witness_stop_cursor : (completed true 0).agg.pubcur = 0 ∧ 28 < (completed true 29).agg.pubcur := by decide
theorem witness_stop_exponent : (-5 : Int) < -4 ∧ (5 : Int) < 6 := by decide
theorem witness_stop_reads : State.reset.len = 0 ∧ (withBuf [0x41, 0x42]).len < 3 ∧
    ((tokens [0x41]).setLen 0).len < (tokens [0x41]).alt.n := by decide +kernel
theorem witness_stop_token : ((tokens [0x41]).alt.tok.get 0).present = true ∧
    ((tokens [0x41]).setLen 0).len < (((tokens [0x41]).setLen 0).alt.tok.get 0).stop := by decide +kernel


end Sys2Proof.Tests
end

section
/-! PROOFS for the family of 00_scope.md. How one step finds its operation (R10, R101, R299), and the values a
measurement slot can come to hold (R15, R170). -/

namespace Sys2Proof.Machine

/-! ## How a step finds its operation (R101) -/

/-- The two-bit command, widened to the byte the decoder reads, selects what `commandSel` says (R101). -/
theorem decode_command (c : BitVec 2) : decode .command [c.zeroExtend 8] = .ok (commandSel c, []) := by
  have hlt : (c.zeroExtend 8).toNat < 4 := by
    rw [BitVec.toNat_setWidth]
    exact Nat.lt_of_le_of_lt (Nat.mod_le _ _) c.isLt
  have hback : (c.zeroExtend 8).truncate 2 = c := by simp
  simp only [decode, hlt, if_true, hback]

/-- Every operation a command selects: the two codes of `NOP`, `INVOKE`, `ABORT` (R101). -/
theorem commandSel_cases (c : BitVec 2) :
    (∃ r, commandSel c = .nop r) ∨ commandSel c = .invoke ∨ commandSel c = .abort := by
  unfold commandSel
  split_ifs
  · exact .inl ⟨false, rfl⟩
  · exact .inr (.inl rfl)
  · exact .inr (.inr rfl)
  · exact .inl ⟨true, rfl⟩

/-- Every operation a port sample selects (R101). -/
theorem decodePort_cases (ev : HostEvent) :
    (∃ p, decodePort ev = .reset p) ∨ (∃ r, decodePort ev = .nop r) ∨ decodePort ev = .invoke ∨
      decodePort ev = .abort := by
  unfold decodePort
  split
  · exact .inl ⟨_, rfl⟩
  · exact .inr (commandSel_cases ev.cmd)

theorem decodePort_wf (ev : HostEvent) : (decodePort ev).wf = true := by
  obtain ⟨p, h⟩ | ⟨r, h⟩ | h | h := decodePort_cases ev
  all_goals rw [h]; rfl

/-- A sample's operation is the one `rst` or the decoder names. -/
theorem decodePort_eq {ev : HostEvent} {i : Instr} (hrst : ev.rst = true → i = .reset ev.protocol)
    (hcmd : ev.rst = false → decode .command [ev.cmd.zeroExtend 8] = .ok (i, [])) : decodePort ev = i := by
  cases h : ev.rst with
  | true => simp [decodePort, h, hrst h]
  | false =>
    have hsel := hcmd h
    rw [decode_command] at hsel
    cases hsel
    simp [decodePort, h]

/-- A step that is not refused runs the sample's operation on the state with the sample taken (R10, U20). -/
theorem step_of_accepted {s : State} (h : s.live = true ∨ (nextEvent s).rst = true) :
    step s = settleOutcome (exec (decodePort (nextEvent s)) (acceptEvent s)) := by
  rw [step, hostStep, if_pos (by simpa using h)]

theorem step_of_not_accepted {s : State} (hl : s.live = false) (hr : (nextEvent s).rst = false) :
    step s = .refused .beforeFirstReset := by
  simp [step, hostStep, hl, hr]

theorem settleOutcome_eq_next {o : Host.Outcome State Fault Refusal} {t : State} :
    settleOutcome o = .next t ↔ ∃ u, o = .next u ∧ t = settle u := by
  cases o <;> simp [settleOutcome, eq_comm]

/-- Everything a step with a next state did: one operation of the host port, then what was left of the schedule
queued. -/
theorem step_eq_next {s t : State} (h : step s = .next t) :
    ∃ u, exec (decodePort (nextEvent s)) (acceptEvent s) = .next u ∧ t = settle u := by
  by_cases hacc : s.live = true ∨ (nextEvent s).rst = true
  · rw [step_of_accepted hacc] at h
    exact settleOutcome_eq_next.1 h
  · simp only [not_or, Bool.not_eq_true] at hacc
    rw [step_of_not_accepted hacc.1 hacc.2] at h
    cases h

/-- Settles O6: `decodePort` is what `rst` or the decoder names, so the step is `exec` of it between `acceptEvent` and
`settle`. -/
theorem stepRunsDecoded : Obligations.StepRunsDecoded := by
  intro s ev rest i hport hacc hrst hcmd u
  have hev : nextEvent s = ev := by simp [nextEvent, hport]
  have hu : acceptEvent s = u := by simp only [acceptEvent, hport]; rfl
  have hi : decodePort ev = i := decodePort_eq hrst hcmd
  have hstep : step s = settleOutcome (exec i u) := by
    rw [step_of_accepted (hev ▸ hacc), hev, hu, hi]
  refine ⟨hi ▸ decodePort_wf ev, fun t h => ?_, fun f h => ?_, fun r h => ?_⟩
  · rw [hstep, h]; rfl
  · rw [hstep, h]; rfl
  · rw [hstep, h]; rfl

/-! ## Rounding stays among the normal numbers (R15, R170) -/

theorem divHalfEven_bounds (a b : Nat) : a / b ≤ divHalfEven a b ∧ divHalfEven a b ≤ a / b + 1 := by
  unfold divHalfEven
  split_ifs
  · omega
  · omega
  · omega

/-- The significand of a quotient whose leading bit is bit `52 + d` has 53 bits, or is `2^53` after a carry. -/
theorem significand_bounds {a b d : Nat} (hlo : 2 ^ (52 + d) ≤ a / b) (hhi : a / b < 2 ^ (53 + d)) :
    2 ^ 52 ≤ divHalfEven a (b * 2 ^ d) ∧ divHalfEven a (b * 2 ^ d) ≤ 2 ^ 53 := by
  have hdiv : a / (b * 2 ^ d) = a / b / 2 ^ d := (Nat.div_div_eq_div_mul ..).symm
  have hge : 2 ^ 52 ≤ a / b / 2 ^ d := by
    rw [Nat.le_div_iff_mul_le (Nat.two_pow_pos d), ← pow_add]
    exact hlo
  have hlt : a / b / 2 ^ d < 2 ^ 53 := by
    rw [Nat.div_lt_iff_lt_mul (Nat.two_pow_pos d), ← pow_add]
    exact hhi
  have := divHalfEven_bounds a (b * 2 ^ d)
  omega

/-- `num * 2^k / den` with the `k` of `roundMagnitude` has its leading bit between bits 54 and `k + 63`. -/
theorem scaledQuotient_bounds {num den : Nat} (hn : 1 ≤ num) (hn' : num < 2 ^ 64) (hd : 1 ≤ den) :
    2 ^ 54 ≤ num * 2 ^ (55 + Nat.log2 den) / den ∧
      num * 2 ^ (55 + Nat.log2 den) / den < 2 ^ (64 + (55 + Nat.log2 den)) := by
  have hden : den < 2 ^ (Nat.log2 den + 1) := Nat.lt_log2_self
  have hpow : 2 ^ (55 + Nat.log2 den) = 2 ^ 54 * 2 ^ (Nat.log2 den + 1) := by rw [← pow_add]; congr 1; omega
  constructor
  · rw [Nat.le_div_iff_mul_le hd]
    calc 2 ^ 54 * den ≤ 2 ^ 54 * 2 ^ (Nat.log2 den + 1) := Nat.mul_le_mul_left _ hden.le
      _ = 2 ^ (55 + Nat.log2 den) := hpow.symm
      _ ≤ num * 2 ^ (55 + Nat.log2 den) := Nat.le_mul_of_pos_left _ hn
  · calc num * 2 ^ (55 + Nat.log2 den) / den ≤ num * 2 ^ (55 + Nat.log2 den) := Nat.div_le_self _ _
      _ < 2 ^ 64 * 2 ^ (55 + Nat.log2 den) := Nat.mul_lt_mul_of_pos_right hn' (Nat.two_pow_pos _)
      _ = 2 ^ (64 + (55 + Nat.log2 den)) := (pow_add ..).symm

/-- A quotient of two positive 64-bit numbers rounds to the pattern of a normal number. -/
theorem roundMagnitude_normal {num den : Nat} (hn : 1 ≤ num) (hn' : num < 2 ^ 64) (hd : 1 ≤ den)
    (hd' : den < 2 ^ 64) :
    2 ^ 52 ≤ roundMagnitude num den ∧ roundMagnitude num den < 2047 * 2 ^ 52 := by
  obtain ⟨hqlo, hqhi⟩ := scaledQuotient_bounds hn hn' hd
  have hk : Nat.log2 den < 64 := (Nat.log2_lt (by omega)).2 hd'
  unfold roundMagnitude
  rw [if_neg (by omega)]
  generalize hkdef : 55 + Nat.log2 den = k at *
  generalize hq : num * 2 ^ k / den = q at *
  have hq0 : q ≠ 0 := by omega
  have htlo : 54 ≤ Nat.log2 q := (Nat.le_log2 hq0).2 hqlo
  have hthi : Nat.log2 q < 64 + k := (Nat.log2_lt hq0).2 hqhi
  have hnormal : k < Nat.log2 q + 1023 := by omega
  obtain ⟨hsig, hsig'⟩ := significand_bounds (a := num * 2 ^ k) (b := den) (d := Nat.log2 q - 52)
    (by rw [hq, show 52 + (Nat.log2 q - 52) = Nat.log2 q by omega]; exact Nat.log2_self_le hq0)
    (by rw [hq, show 53 + (Nat.log2 q - 52) = Nat.log2 q + 1 by omega]; exact Nat.lt_log2_self)
  simp only [hq, hnormal, if_true]
  split_ifs
  · omega
  · omega

/-- `round64` of zero, or of a quotient of two positive 64-bit numbers, is +0.0 or a normal number (R170). -/
theorem round64_ordinary (neg : Bool) {num den : Nat} (hn : num < 2 ^ 64) (hd : 1 ≤ den) (hd' : den < 2 ^ 64) :
    OrdinaryValue (round64 neg num den) := by
  rcases Nat.eq_zero_or_pos num with rfl | hpos
  · exact .inl (by simp [round64, roundMagnitude])
  · obtain ⟨hlo, hhi⟩ := roundMagnitude_normal hpos hn hd hd'
    refine .inr ?_
    have hm : roundMagnitude num den ≠ 0 := by omega
    simp only [f64Exponent, round64, if_neg hm, BitVec.toNat_ofNat]
    cases neg with
    | false => simp only [Bool.false_eq_true, if_false]; omega
    | true => simp only [if_true]; omega

/-- Every entry of the power-of-ten table is a quotient of two numbers from 1 to 100000 (R181). -/
theorem powerOfTen_bounds {e : Int} {num den : Nat} (h : powerOfTen e = some (num, den)) :
    num ≤ 100000 ∧ 1 ≤ den ∧ den ≤ 10000 := by
  unfold powerOfTen at h
  split_ifs at h
  all_goals cases h; omega

/-- What `SCL.SCALE` makes of a 32-bit raw value is +0.0 or a normal number. -/
theorem scaledValue_ordinary {raw e : Int} {v : F64} (hraw : raw.natAbs < 2 ^ 32) (h : scaledValue raw e = some v) :
    OrdinaryValue v := by
  unfold scaledValue at h
  split at h
  next num den hp =>
    obtain ⟨hnum, hden, hden'⟩ := powerOfTen_bounds hp
    cases h
    have hprod : raw.natAbs * num ≤ 2 ^ 32 * 100000 := Nat.mul_le_mul hraw.le hnum
    exact round64_ordinary _ (by omega) hden (by omega)
  next => cases h

/-- What `DEC.END` makes of a capped integer part and at most three fractional digits is +0.0 or a normal number. -/
theorem decimalResult_ordinary (neg : Bool) {ip fp nf : Nat} (hip : ip ≤ 2147483647) (hnf : nf ≤ 3)
    (hfp : fp < 10 ^ nf) : OrdinaryValue (decimalResult neg ip fp nf) := by
  have hpow : 10 ^ nf ≤ 10 ^ 3 := Nat.pow_le_pow_right (by omega) hnf
  have hprod : ip * 10 ^ nf ≤ 2147483647 * 10 ^ 3 := Nat.mul_le_mul hip hpow
  exact round64_ordinary _ (by omega) (by omega) (by omega)

/-- The raw value `COMMIT` scales is a 32-bit one (R262). -/
theorem rawValue_natAbs_lt (t : Tlv) : (rawValue t).natAbs < 2 ^ 32 := by
  have hu := t.uval.isLt
  have hs := BitVec.toInt_lt (x := t.sval)
  have hs' := BitVec.le_toInt t.sval
  unfold rawValue
  split_ifs
  · omega
  · omega

/-! ## What a micro-operation establishes -/

/-- Where it goes on, `G` holds; where it raised, `E` holds of what the abort sequence left. -/
def Flow.Post (G E : State → Prop) : Flow → Prop
  | .go s => G s
  | .ended s => E s
  | .stop _ => True

section
variable {G H E : State → Prop}

@[simp] theorem Flow.post_go {s : State} : (Flow.go s).Post G E ↔ G s := Iff.rfl

@[simp] theorem Flow.post_ended {s : State} : (Flow.ended s).Post G E ↔ E s := Iff.rfl

@[simp] theorem Flow.post_stop {r : Fault} : (Flow.stop r).Post G E := trivial

/-- Sequencing: what the first part establishes is what the second may use. -/
theorem Flow.Post.andThen {f : Flow} {k : State → Flow} (hf : f.Post G E) (hk : ∀ s, G s → (k s).Post H E) :
    (f.andThen k).Post H E := by
  cases f with
  | go s => exact hk s hf
  | ended s => exact hf
  | stop r => trivial

theorem Flow.Post.outcome {f : Flow} {t : State} (hf : f.Post G G) (h : f.outcome = .next t) : G t := by
  obtain rfl | rfl := Flow.outcome_eq_next.1 h
  · exact hf
  · exact hf

theorem need_post {n : Nat} {s : State} {k : State → Flow} (hE : E (s.afterAbort .truncatedStruct))
    (hk : (k s).Post G E) : (need n s k).Post G E := by
  obtain ⟨-, h⟩ | ⟨-, h⟩ := need_cases n s k
  · rwa [h]
  · rwa [h]

theorem State.withBytes_post {s : State} {a b : Nat} {k : List Byte → Flow} (hk : ∀ bs, (k bs).Post G E) :
    (s.withBytes a b k).Post G E := by
  unfold State.withBytes
  split
  · exact hk _
  · trivial

theorem State.withToken_post {s : State} {t : Tok} {k : List Byte → Flow} (hk : ∀ bs, (k bs).Post G E) :
    (s.withToken t k).Post G E := by
  unfold State.withToken
  split
  · exact State.withBytes_post hk
  · exact hk _

end

/-! ## The invariant of the slots -/

/-- The parameters are legal and every slot holds a value R170 allows. -/
def State.SlotInv (s : State) : Prop := LegalParams s.params ∧ s.SlotsOrdinary

/-- A micro-operation that keeps the slots' invariant, whichever way it ends. -/
abbrev Flow.KeepsSlots (f : Flow) : Prop := f.Post State.SlotInv State.SlotInv

/-- The invariant reads the parameters and the slots only. -/
theorem State.SlotInv.congr {s t : State} (h : s.SlotInv) (hp : t.params = s.params)
    (hs : t.agg.slots = s.agg.slots) : t.SlotInv := by
  obtain ⟨hlegal, hslots⟩ := h
  exact ⟨hp ▸ hlegal, fun i => hs ▸ hslots i⟩

/-- An aggregate at rest holds +0.0 in every slot. -/
theorem State.SlotInv.of_atRest {t : State} (hp : LegalParams t.params) (ht : t.agg.AtRest) : t.SlotInv := by
  obtain ⟨hzero, -⟩ := ht
  exact ⟨hp, fun i => .inl (hzero i)⟩

theorem State.SlotInv.setDec {s : State} (h : s.SlotInv) (d : Dec) : (s.setDec d).SlotInv := h.congr rfl rfl

theorem State.SlotInv.setFcs {s : State} (h : s.SlotInv) (c : Half) : (s.setFcs c).SlotInv := h.congr rfl rfl

theorem State.SlotInv.setQueue {s : State} (h : s.SlotInv) (q : List Byte) : (s.setQueue q).SlotInv :=
  h.congr rfl rfl

theorem State.SlotInv.aggInit {s : State} (h : s.SlotInv) : s.aggInit.SlotInv :=
  .of_atRest h.1 Agg.init_atRest

theorem State.SlotInv.toScanning {s : State} (h : s.SlotInv) : s.toScanning.SlotInv :=
  .of_atRest h.1 Agg.init_atRest

theorem State.SlotInv.afterAbort {s : State} (h : s.SlotInv) (e : ErrorCode) : (s.afterAbort e).SlotInv :=
  .of_atRest h.1 Agg.init_atRest

/-- `AGG.WR` of an ordinary value keeps the invariant, whatever the slot (R292). -/
theorem State.SlotInv.aggWr {s : State} (h : s.SlotInv) (i : Fin 28) {v : F64} (hv : OrdinaryValue v) :
    (doAggWr i v s).SlotInv := by
  obtain ⟨hlegal, hslots⟩ := h
  refine ⟨hlegal, fun j => ?_⟩
  by_cases hj : j = i
  · rw [hj, doAggWr, State.setSlot_get_same]; exact hv
  · rw [doAggWr, State.setSlot_get_other s v hj]; exact hslots j

theorem State.SlotInv.raise {s : State} (h : s.SlotInv) (e : ErrorCode) {G : State → Prop} :
    (raise e s).Post G State.SlotInv := by
  rw [raise_eq]
  exact h.afterAbort e

theorem State.SlotInv.bufAppend {s : State} (h : s.SlotInv) (b : Byte) : (bufAppend b s).KeepsSlots := by
  obtain ⟨-, he⟩ | ⟨-, he⟩ := bufAppend_cases b s
  · rw [he]; exact h.congr rfl rfl
  · rw [he]; exact h.afterAbort _

theorem State.SlotInv.romLkp {s : State} (h : s.SlotInv) (key : Key) : (doRomLkp key s).SlotInv := by
  obtain ⟨slot, -, he⟩ | ⟨-, he⟩ := doRomLkp_cases key s
  · rw [he]; exact h.congr rfl rfl
  · rw [he]; exact h.congr rfl rfl

/-! ## The decimal parser's value (R171 to R178) -/

/-- While the token is read: the integer part is under the cap, and `F` has `nf` digits, at most three (R173, R175). -/
def State.DecBounded (s : State) : Prop :=
  s.dec.intPart ≤ s.params.decIntMax ∧ s.dec.nf ≤ 3 ∧ s.dec.frac < 10 ^ s.dec.nf

theorem digitValue_le_nine {b : Byte} (h : isDigit b = true) : digitValue b ≤ 9 := by
  simp only [isDigit, Bool.and_eq_true, decide_eq_true_eq] at h
  unfold digitValue
  omega

/-- `DEC.FRAC` is selected by a digit only (R177). -/
theorem isDigit_of_decSel_frac {d : DState} {b : Byte} (h : decSel d b = .frac) : isDigit b = true := by
  by_contra hb
  unfold decSel at h
  rw [if_neg hb] at h
  split_ifs at h

/-- The digits read so far stay bounded from byte to byte. -/
theorem decStep_post {s : State} (b : Byte) (h : s.SlotInv) (hd : s.DecBounded) :
    (decStep b s).Post (fun t => t.SlotInv ∧ t.DecBounded) State.SlotInv := by
  obtain ⟨hint, hnf, hfrac⟩ := hd
  unfold decStep
  split
  next => exact ⟨h.congr rfl rfl, hint, hnf, hfrac⟩
  next =>
    simp only [doDecDigit]
    split
    next => exact (h.setDec _).raise _
    next hcap => exact ⟨h.congr rfl rfl, Nat.not_lt.1 hcap, hnf, hfrac⟩
  next => exact ⟨h.congr rfl rfl, hint, hnf, hfrac⟩
  next hsel =>
    have hx := digitValue_le_nine (isDigit_of_decSel_frac hsel)
    unfold doDecFrac
    split
    next => exact h.raise _
    next hroom =>
      refine ⟨h.congr rfl rfl, hint, Nat.not_le.1 hroom, ?_⟩
      simp only [State.setDec_dec, pow_succ]
      omega
  next => exact h.raise _

theorem decRun_post (bs : List Byte) {s : State} (h : s.SlotInv) (hd : s.DecBounded) :
    (decRun bs s).Post (fun t => t.SlotInv ∧ t.DecBounded) State.SlotInv := by
  induction bs generalizing s with
  | nil => exact ⟨h, hd⟩
  | cons b bs ih => exact (decStep_post b h hd).andThen fun t ⟨ht, htd⟩ => ih ht htd

/-- `DEC.PARSE` goes on only with an ordinary value in its latch (R170, R176). -/
theorem doDecParse_post (k : Fin 4) {s : State} (h : s.SlotInv) :
    (doDecParse k s).Post (fun t => t.SlotInv ∧ OrdinaryValue t.latch.value) State.SlotInv := by
  refine State.withToken_post fun bs => ?_
  have hinit : (s.setDec Dec.init).DecBounded := ⟨Nat.zero_le _, Nat.zero_le _, Nat.one_pos⟩
  refine (decRun_post bs (h.setDec _) hinit).andThen fun t ⟨ht, hint, hnf, hfrac⟩ => ?_
  have hcap : t.params.decIntMax ≤ 2147483647 := by
    obtain ⟨-, -, -, -, -, -, -, -, hmax⟩ := ht.1
    exact hmax
  unfold doDecEnd
  split
  · exact ⟨ht.congr rfl rfl, decimalResult_ordinary _ (hint.trans hcap) hnf hfrac⟩
  · exact ht.raise _

/-! ## A completed ASCII line -/

theorem doKeyParse_keepsSlots (k : Fin 4) {s : State} (h : s.SlotInv) : (doKeyParse k s).KeepsSlots := by
  refine State.withToken_post fun bs => ?_
  split
  · exact h.congr rfl rfl
  · exact h.congr rfl rfl

theorem lDataValue_keepsSlots {s : State} (h : s.SlotInv) : (lDataValue s).KeepsSlots := by
  unfold lDataValue
  split
  · exact (doDecParse_post 2 h).andThen fun t ⟨ht, hv⟩ => ht.aggWr _ hv
  · exact h

theorem lDataKey_keepsSlots {s : State} (h : s.SlotInv) : (lDataKey s).KeepsSlots := by
  unfold lDataKey
  split
  · exact lDataValue_keepsSlots (h.romLkp _)
  · exact h

theorem lDataTokens_keepsSlots {s : State} (h : s.SlotInv) : (lDataTokens s).KeepsSlots := by
  unfold lDataTokens
  split
  · exact (doKeyParse_keepsSlots 1 h).andThen fun _ ht => lDataKey_keepsSlots ht
  · exact h

/-- `L.DATA` writes a slot at most once, and then the value `DEC.PARSE` made (R200). -/
theorem doLData_keepsSlots {s : State} (h : s.SlotInv) : (doLData s).KeepsSlots := by
  have hsplit : (doTSplit s).KeepsSlots := State.withBytes_post fun _ => h.congr rfl rfl
  refine hsplit.andThen fun t ht => ?_
  have hmatch : (doIdMatch 0 t).KeepsSlots := State.withToken_post fun _ => ht.congr rfl rfl
  split
  · exact hmatch.andThen fun _ hu => lDataTokens_keepsSlots hu
  · exact ht

theorem doLCksum_slotInv {s : State} (h : s.SlotInv) : (doLCksum s).SlotInv := by
  simp only [doLCksum]
  split
  · exact h.congr rfl rfl
  · exact h.congr rfl rfl

theorem lineDispatch_keepsSlots {s : State} (h : s.SlotInv) : (lineDispatch s).KeepsSlots := by
  unfold lineDispatch
  split
  next => exact doLCksum_slotInv h
  next =>
    have hstrip : (doLStrip s).KeepsSlots := by
      unfold doLStrip
      split
      · trivial
      · exact h.congr rfl rfl
    refine hstrip.andThen fun t ht => ?_
    split
    · exact doLData_keepsSlots ht
    · exact ht

theorem feedByte_slotInv (b : Byte) {s : State} (h : s.SlotInv) : (feedByte b s).SlotInv := by
  unfold feedByte
  split
  · exact h.congr rfl rfl
  · exact h

/-- One ASCII stream byte (R103). -/
theorem asciiByte_keepsSlots (b : Byte) {s : State} (h : s.SlotInv) : (asciiByte b s).KeepsSlots := by
  unfold asciiByte
  split
  next => exact h.raise _
  next =>
    have hline := (feedByte_slotInv lf h).bufAppend lf
    exact (hline.andThen fun _ ht => lineDispatch_keepsSlots ht).andThen fun _ hu => hu.congr rfl rfl
  next => exact (feedByte_slotInv b h).bufAppend b

/-! ## The walk of a frame -/

/-- The elements of a structure write the walker's registers and `KEY` alone (R253 to R261). -/
theorem elementStep_keepsSlots {s : State} (h : s.SlotInv) : (elementStep s).KeepsSlots := by
  have habort := h.afterAbort .truncatedStruct
  refine need_post habort ?_
  split
  next => exact need_post habort (h.congr rfl rfl)
  next => exact need_post habort (h.congr rfl rfl)
  next => exact need_post habort (h.congr rfl rfl)
  next =>
    refine need_post habort (need_post habort ?_)
    split
    · exact h.congr rfl rfl
    · exact h.congr rfl rfl
  next => exact need_post habort (h.congr rfl rfl)
  next => exact need_post habort (h.congr rfl rfl)
  next => exact need_post habort (h.congr rfl rfl)
  next => exact h.congr rfl rfl

theorem elementLoop_keepsSlots (bound : Nat) {s : State} (h : s.SlotInv) : (elementLoop bound s).KeepsSlots := by
  induction bound generalizing s with
  | zero =>
    unfold elementLoop
    split
    · exact h
    · trivial
  | succ bound ih =>
    unfold elementLoop
    split
    · exact h
    · exact (elementStep_keepsSlots h).andThen fun _ ht => ih ht

/-- The scaled write of `COMMIT` (R262): a 32-bit raw value times a power of ten of the table. -/
theorem commitValue_keepsSlots {s : State} (h : s.SlotInv) : (commitValue s).KeepsSlots := by
  unfold commitValue
  split
  next =>
    have hscale : (doSclScale (rawValue s.tlv) s.tlv.scale.toInt s).Post
        (fun t => t.SlotInv ∧ OrdinaryValue t.latch.value) State.SlotInv := by
      unfold doSclScale
      split
      next v hv => exact ⟨h.congr rfl rfl, scaledValue_ordinary (rawValue_natAbs_lt _) hv⟩
      next => trivial
    exact hscale.andThen fun t ⟨ht, hv⟩ => ht.aggWr _ hv
  next => exact h.raise _

theorem doCommit_keepsSlots {s : State} (h : s.SlotInv) : (doCommit s).KeepsSlots := by
  have hslot : (commitSlot s).KeepsSlots := by
    simp only [commitSlot]
    split_ifs
    · exact commitValue_keepsSlots (h.romLkp _)
    · exact h.romLkp _
    · exact h
  exact hslot.andThen fun _ ht => ht.congr rfl rfl

theorem doStruct_keepsSlots (cnt : Byte) {s : State} (h : s.SlotInv) : (doStruct cnt s).KeepsSlots := by
  have habort := h.afterAbort .truncatedStruct
  refine need_post habort ?_
  split
  · exact h.raise _
  · exact need_post habort (h.congr rfl rfl)

theorem structureStep_keepsSlots {s : State} (h : s.SlotInv) : (structureStep s).KeepsSlots :=
  ((doStruct_keepsSlots _ h).andThen fun _ ht => elementLoop_keepsSlots _ ht).andThen fun _ hu =>
    doCommit_keepsSlots hu

theorem structureLoop_keepsSlots (bound : Nat) {s : State} (h : s.SlotInv) : (structureLoop bound s).KeepsSlots := by
  induction bound generalizing s with
  | zero => exact h
  | succ bound ih =>
    unfold structureLoop
    split
    · exact h
    · exact (structureStep_keepsSlots h).andThen fun _ ht => ih ht

/-! ## The validation of a frame (R228 to R236) -/

theorem doVSize_keepsSlots {s : State} (h : s.SlotInv) : (doVSize s).KeepsSlots := by
  unfold doVSize
  split
  · exact h.raise _
  · exact h

theorem doVLen_keepsSlots {s : State} (h : s.SlotInv) : (doVLen s).KeepsSlots := by
  unfold doVLen
  split_ifs
  · trivial
  · exact h.raise _
  · exact h

theorem doVFcs_keepsSlots {s : State} (h : s.SlotInv) : (doVFcs s).KeepsSlots := by
  unfold doVFcs
  split
  next => trivial
  next =>
    extract_lets t
    have ht : t.SlotInv := by
      show (doCrcxFin (crcxRun _ _)).SlotInv
      rw [crcxRun_eq]
      exact ((h.setFcs _).setFcs _).setFcs _
    clear_value t
    split
    · exact ht.raise _
    · exact ht

theorem validateChecks_keepsSlots {s : State} (h : s.SlotInv) : (validateChecks s).KeepsSlots :=
  (((doVSize_keepsSlots h).andThen fun _ ht => doVLen_keepsSlots ht).andThen fun _ hu =>
    doVFcs_keepsSlots hu).andThen fun _ hw => hw.congr rfl rfl

theorem decodeOpening_keepsSlots {s : State} (h : s.SlotInv) : (decodeOpening s).KeepsSlots := by
  have hhdr : (doHHdr s).SlotInv := h.congr rfl rfl
  have hdate : (doHDate ((doHHdr s).elemByte 0) (doHHdr s)).KeepsSlots :=
    need_post (hhdr.afterAbort _) (hhdr.congr rfl rfl)
  refine hdate.andThen fun t ht => need_post (ht.afterAbort _) ?_
  split
  · exact ht.raise _
  · exact need_post (ht.afterAbort _) (ht.congr rfl rfl)

theorem doHValidate_keepsSlots {s : State} (h : s.SlotInv) : (doHValidate s).KeepsSlots :=
  (((validateChecks_keepsSlots h).andThen fun _ ht => decodeOpening_keepsSlots ht).andThen fun _ hu =>
    structureLoop_keepsSlots _ hu).andThen fun _ hw => hw.congr rfl rfl

/-- One HDLC stream byte stores or drops it; no slot is written before the frame is validated (R106). -/
theorem hdlcByte_keepsSlots (b : Byte) {s : State} (h : s.SlotInv) : (hdlcByte b s).KeepsSlots := by
  unfold hdlcByte
  split
  next => exact h
  next => exact h.congr rfl rfl
  next => exact h.bufAppend b
  next => exact (h.bufAppend flagByte).andThen fun _ ht => ht.congr rfl rfl
  next => exact h.raise _
  next => trivial

/-! ## The host's operations -/

theorem arriveNext_slotInv {s : State} (h : s.SlotInv) : (arriveNext s).SlotInv := by
  unfold arriveNext
  split
  · exact h
  · exact h.congr rfl rfl

theorem parseAscii_keepsSlots (j : Nat) {s : State} (h : s.SlotInv) : (parseAscii j s).KeepsSlots := by
  induction j generalizing s with
  | zero => exact h
  | succ j ih =>
    have harrive := arriveNext_slotInv h
    unfold parseAscii
    split
    next => exact harrive
    next b q _ =>
      refine (asciiByte_keepsSlots b (harrive.setQueue q)).andThen fun t ht => ?_
      split
      · exact ht
      · exact ih ht

theorem hdlcDry_slotInv {s : State} (h : s.SlotInv) : (hdlcDry s).SlotInv := by
  unfold hdlcDry
  split
  · exact h.congr rfl rfl
  · exact h

theorem parseHdlc_keepsSlots (j : Nat) {s : State} (h : s.SlotInv) : (parseHdlc j s).KeepsSlots := by
  induction j generalizing s with
  | zero => exact h
  | succ j ih =>
    have harrive := arriveNext_slotInv h
    unfold parseHdlc
    split
    next => exact hdlcDry_slotInv harrive
    next b q _ =>
      refine (hdlcByte_keepsSlots b (harrive.setQueue q)).andThen fun t ht => ?_
      split
      · exact ht
      · exact ih ht

theorem doAggDlv_keepsSlots {s : State} (h : s.SlotInv) : (doAggDlv s).KeepsSlots := by
  unfold doAggDlv
  split
  · exact h.congr rfl rfl
  · trivial

theorem deliverRun_keepsSlots (k : Nat) {s : State} (h : s.SlotInv) : (deliverRun k s).KeepsSlots := by
  induction k generalizing s with
  | zero => exact h
  | succ k ih => exact (doAggDlv_keepsSlots h).andThen fun _ ht => ih ht

theorem doFDrain_keepsSlots {s : State} (h : s.SlotInv) : (doFDrain s).KeepsSlots := by
  refine (deliverRun_keepsSlots _ h).andThen fun t ht => ?_
  split
  · exact ht.aggInit
  · exact ht

theorem doFParseH_keepsSlots {s : State} (h : s.SlotInv) : (doFParseH s).KeepsSlots := by
  unfold doFParseH
  split
  · exact doHValidate_keepsSlots h
  · exact parseHdlc_keepsSlots _ h

/-- Each of the four things an `INVOKE` can turn into keeps the invariant (R294). -/
theorem doInvoke_keepsSlots {s : State} (h : s.SlotInv) : (doInvoke s).KeepsSlots := by
  unfold doInvoke
  split_ifs
  · exact doFDrain_keepsSlots h
  · exact h.aggInit
  · split
    · exact parseAscii_keepsSlots _ h
    · exact doFParseH_keepsSlots h

/-- What the host port can select keeps the invariant. -/
theorem exec_decodePort_slotInv {ev : HostEvent} {s t : State} (h : s.SlotInv)
    (he : exec (decodePort ev) s = .next t) : t.SlotInv := by
  obtain ⟨p, hi⟩ | ⟨r, hi⟩ | hi | hi := decodePort_cases ev
  all_goals rw [hi] at he
  case inl => cases he; exact h.toScanning.congr rfl rfl
  case inr.inl => cases he; exact h
  case inr.inr.inl => exact (doInvoke_keepsSlots h).outcome he
  case inr.inr.inr => cases he; exact h.toScanning

theorem acceptEvent_slotInv {s : State} (h : s.SlotInv) : (acceptEvent s).SlotInv := by
  unfold acceptEvent
  split
  · exact h
  · exact h.congr rfl rfl

/-- One step of CORE keeps the slots' invariant. -/
theorem step_slotInv {s t : State} (h : s.SlotInv) (hstep : step s = .next t) : t.SlotInv := by
  obtain ⟨u, hexec, rfl⟩ := step_eq_next hstep
  exact (exec_decodePort_slotInv (acceptEvent_slotInv h) hexec).congr rfl rfl

/-- Settles O32: the parameters stay legal along the step, so every value written to a slot is one that
`decimalResult_ordinary` or `scaledValue_ordinary` speaks of. -/
theorem slotValuesOrdinary : Obligations.SlotValuesOrdinary := by
  intro s t hlegal hslots hstep
  obtain ⟨-, ht⟩ := step_slotInv ⟨hlegal, hslots⟩ hstep
  exact ht

end Sys2Proof.Machine
end

section
/-! PROOFS for the family of 10_state.md. What every operation leaves of the configuration, the queue and the buffer
(R20, R26, R27, R57, R62, R76), and the invariant of every host-visible point (R22 to R28, R290, R296, R362). Each
operation is walked once, from any state: where it cannot stop, what it leaves when it goes on, what a raise leaves. -/

namespace Sys2Proof.Machine

/-! ## What an operation leaves -/

/-- From `e` to `f` the next `k` scheduled arrivals were queued and at most `j` of the oldest bytes taken
(R62, R299). -/
def Env.Takes (j k : Nat) (e f : Env) : Prop :=
  ∃ taken : List Byte, taken.length ≤ j ∧ e.queue ++ (e.arrivals.take k).flatten = taken ++ f.queue ∧
    f.arrivals = e.arrivals.drop k ∧ f.port = e.port

theorem Env.Takes.refl (e : Env) : e.Takes 0 0 e := ⟨[], Nat.le_refl 0, by simp, rfl, rfl⟩

theorem Env.Takes.trans {j j' k k' : Nat} {e f g : Env} (h : e.Takes j k f) (h' : f.Takes j' k' g) :
    e.Takes (j + j') (k + k') g := by
  obtain ⟨taken, hlen, hqueue, harr, hport⟩ := h
  obtain ⟨taken', hlen', hqueue', harr', hport'⟩ := h'
  refine ⟨taken ++ taken', by rw [List.length_append]; omega, ?_, ?_, hport'.trans hport⟩
  · rw [harr] at hqueue'
    rw [List.take_add, List.flatten_append, ← List.append_assoc, hqueue, List.append_assoc, hqueue',
      List.append_assoc]
  · rw [harr', harr, List.drop_drop]

theorem Env.Takes.mono {j j' k : Nat} {e f : Env} (h : e.Takes j k f) (hj : j ≤ j') : e.Takes j' k f := by
  obtain ⟨taken, hlen, hrest⟩ := h
  exact ⟨taken, hlen.trans hj, hrest⟩

/-- What every operation but RESET keeps: the configuration, the events already emitted, the buffer's form and bounds,
and of the environment what `Env.Takes` says. -/
structure State.Evolves (j k : Nat) (s t : State) : Prop where
  params : t.params = s.params
  live : t.live = s.live
  protocol : t.protocol = s.protocol
  trace : s.trace <+: t.trace
  buffer : 1 ≤ s.params.bufCap → s.BufferOk → t.BufferOk
  takes : s.env.Takes j k t.env

theorem State.Evolves.trans {j j' k k' : Nat} {s t u : State} (h : s.Evolves j k t) (h' : t.Evolves j' k' u) :
    s.Evolves (j + j') (k + k') u where
  params := h'.params.trans h.params
  live := h'.live.trans h.live
  protocol := h'.protocol.trans h.protocol
  trace := h.trace.trans h'.trace
  buffer hcap hbuf := h'.buffer (h.params ▸ hcap) (h.buffer hcap hbuf)
  takes := h.takes.trans h'.takes

theorem State.Evolves.mono {j j' k : Nat} {s t : State} (h : s.Evolves j k t) (hj : j ≤ j') : s.Evolves j' k t :=
  { h with takes := h.takes.mono hj }

/-- Where the buffer's bytes are kept and `len` does not grow, the buffer stays in bounds. -/
theorem State.Evolves.of_same {s t : State} (hp : t.params = s.params) (hl : t.live = s.live)
    (hpr : t.protocol = s.protocol) (htr : s.trace <+: t.trace) (hb : t.buf = s.buf) (hlen : t.len ≤ s.len)
    (he : t.env = s.env) : s.Evolves 0 0 t where
  params := hp
  live := hl
  protocol := hpr
  trace := htr
  buffer _ := fun ⟨hwf, hbelow, hle⟩ => ⟨hb ▸ hwf, by rw [hb, hp]; exact hbelow, by rw [hp]; exact hlen.trans hle⟩
  takes := he ▸ Env.Takes.refl _

theorem State.Evolves.refl (s : State) : s.Evolves 0 0 s :=
  .of_same rfl rfl rfl List.prefix_rfl rfl (Nat.le_refl _) rfl

/-- A write to the aggregate and the working registers, whatever the values. -/
theorem State.Evolves.registers (s : State) (agg : Agg) (alt : Alt) (dec : Dec) (fcs : Half) (tlv : Tlv)
    (latch : Latch) (h : HState) :
    s.Evolves 0 0 { s with agg := agg, alt := alt, dec := dec, fcs := fcs, tlv := tlv, latch := latch, hstate := h } :=
  .of_same rfl rfl rfl List.prefix_rfl rfl (Nat.le_refl _) rfl

/-- The micro-operations of a line and of the walk: they write slots, working registers and the trace, and nothing
else. -/
structure State.Quiet (s t : State) : Prop where
  params : t.params = s.params
  live : t.live = s.live
  protocol : t.protocol = s.protocol
  trace : s.trace <+: t.trace
  buf : t.buf = s.buf
  len : t.len = s.len
  hstate : t.hstate = s.hstate
  env : t.env = s.env
  agg : t.agg = { s.agg with slots := t.agg.slots }

theorem State.Quiet.refl (s : State) : s.Quiet s :=
  ⟨rfl, rfl, rfl, List.prefix_rfl, rfl, rfl, rfl, rfl, rfl⟩

theorem State.Quiet.trans {s t u : State} (h : s.Quiet t) (h' : t.Quiet u) : s.Quiet u where
  params := h'.params.trans h.params
  live := h'.live.trans h.live
  protocol := h'.protocol.trans h.protocol
  trace := h.trace.trans h'.trace
  buf := h'.buf.trans h.buf
  len := h'.len.trans h.len
  hstate := h'.hstate.trans h.hstate
  env := h'.env.trans h.env
  agg := by rw [h'.agg, h.agg]

theorem State.Quiet.evolves {s t : State} (h : s.Quiet t) : s.Evolves 0 0 t :=
  .of_same h.params h.live h.protocol h.trace h.buf h.len.le h.env

/-- A write to the slots and the working registers, whatever the values. -/
theorem State.Quiet.work (s : State) (slots : Vector F64 28) (alt : Alt) (dec : Dec) (fcs : Half) (tlv : Tlv)
    (latch : Latch) :
    s.Quiet { s with agg := { s.agg with slots := slots }, alt := alt, dec := dec, fcs := fcs, tlv := tlv,
                     latch := latch } :=
  ⟨rfl, rfl, rfl, List.prefix_rfl, rfl, rfl, rfl, rfl, rfl⟩

/-- What a raise leaves: the machine scanning for the next telegram (R329). -/
structure State.Raised (s t : State) : Prop where
  evolves : s.Evolves 0 0 t
  aborted : t.Aborted

theorem State.raised_afterAbort (s : State) (e : ErrorCode) : s.Raised (s.afterAbort e) where
  evolves := .of_same rfl rfl rfl (List.prefix_append _ _) rfl (Nat.zero_le _) rfl
  aborted := s.afterAbort_aborted e

theorem State.Evolves.raised {s t u : State} (h : s.Evolves 0 0 t) (h' : t.Raised u) : s.Raised u :=
  ⟨h.trans h'.evolves, h'.aborted⟩

/-! ## Micro-operations that stop only where `P` fails -/

/-- `Flow.Post`, and where `P` holds the micro-operation does not stop. -/
def Flow.Meets (P : Prop) (G E : State → Prop) : Flow → Prop
  | .go s => G s
  | .ended s => E s
  | .stop _ => ¬ P

section
variable {P Q : Prop} {G G' H E E' : State → Prop}

theorem Flow.Meets.mono {f : Flow} (h : f.Meets P G E) (hP : Q → P) (hG : ∀ t, G t → G' t) (hE : ∀ t, E t → E' t) :
    f.Meets Q G' E' := by
  cases f with
  | go s => exact hG s h
  | ended s => exact hE s h
  | stop r => exact fun hQ => h (hP hQ)

/-- Sequencing: what the first part establishes is what the second may use. -/
theorem Flow.Meets.andThen {f : Flow} {k : State → Flow} (hf : f.Meets P G E) (hk : ∀ t, G t → (k t).Meets P H E) :
    (f.andThen k).Meets P H E := by
  cases f with
  | go s => exact hk s hf
  | ended s => exact hf
  | stop r => exact hf

theorem Flow.Meets.post {f : Flow} (h : f.Meets P G E) : f.Post G E := by
  cases f with
  | go s => exact h
  | ended s => exact h
  | stop r => trivial

/-- Where it does not stop, the operation has a next state. -/
theorem Flow.Meets.next {f : Flow} (h : f.Meets P G G) (hP : P) : ∃ t, f.outcome = .next t ∧ G t := by
  cases f with
  | go s => exact ⟨s, rfl, h⟩
  | ended s => exact ⟨s, rfl, h⟩
  | stop r => exact absurd hP h

/-- A read below `len` is the only one that does not stop (R78). -/
theorem State.withBytes_meets {s : State} {a b : Nat} {k : List Byte → Flow}
    (hk : b ≤ s.len → (k (s.bytes a b)).Meets P G E) (hP : P → b ≤ s.len) : (s.withBytes a b k).Meets P G E := by
  rcases Nat.lt_or_ge s.len b with h | h
  · rw [State.withBytes_of_lt h]
    exact fun hp => Nat.not_le.2 h (hP hp)
  · rw [State.withBytes_of_le h]
    exact hk h

/-- The text of token register `k` lies below `len` (R31). -/
def State.TokenInside (s : State) (k : Fin 4) : Prop :=
  (s.alt.tok.get k).present = true → (s.alt.tok.get k).stop ≤ s.len

theorem State.withToken_meets {s : State} {k : Fin 4} {f : List Byte → Flow}
    (hf : ∀ bs, (f bs).Meets (s.TokenInside k) G E) :
    (s.withToken (s.alt.tok.get k) f).Meets (s.TokenInside k) G E := by
  unfold State.withToken
  split
  next hp => exact State.withBytes_meets (fun _ => hf _) fun h => h hp
  next => exact hf _

end

/-- It goes on quietly from `s`, or raises. -/
abbrev Flow.Quietly (P : Prop) (s : State) (f : Flow) : Prop := f.Meets P s.Quiet s.Raised

section
variable {P Q : Prop} {s u : State} {f : Flow} {G H : State → Prop}

theorem Flow.Quietly.after (h : f.Quietly P u) (hu : s.Quiet u) : f.Quietly P s :=
  Flow.Meets.mono h id (fun _ ht => hu.trans ht) fun _ ht => hu.evolves.raised ht

theorem Flow.Quietly.weaken (h : f.Quietly P s) (hP : Q → P) : f.Quietly Q s :=
  Flow.Meets.mono h hP (fun _ => id) fun _ => id

/-- Quiet micro-operations in a row. -/
theorem Flow.Quietly.andThen {k : State → Flow} (hf : f.Quietly P s) (hk : ∀ t, (k t).Quietly P t) :
    (f.andThen k).Quietly P s :=
  Flow.Meets.andThen hf fun t ht => (hk t).after ht

theorem raise_meets (e : ErrorCode) (s : State) : (raise e s).Meets P G s.Raised := by
  rw [raise_eq]
  exact s.raised_afterAbort e

/-- The overrun check leaves the rest of the operation inside the frame (R251). -/
theorem need_meets {n : Nat} {k : State → Flow} (hk : s.tlv.cur + n ≤ s.len → (k s).Meets P G s.Raised) :
    (need n s k).Meets P G s.Raised := by
  obtain ⟨hle, h⟩ | ⟨-, h⟩ := need_cases n s k
  · rw [h]; exact hk hle
  · rw [h]; exact s.raised_afterAbort _

end

/-! ## The ROM, the decimal parser and the scaler -/

theorem doRomLkp_quiet (key : Key) (s : State) : s.Quiet (doRomLkp key s) := by
  obtain ⟨slot, -, h⟩ | ⟨-, h⟩ := doRomLkp_cases key s
  · rw [h]; exact .work s _ _ _ _ _ _
  · rw [h]; exact .work s _ _ _ _ _ _

theorem doDecDigit_quietly (x : Nat) (s : State) : (doDecDigit x s).Quietly True s := by
  have hset : s.Quiet (s.setDec { s.dec with intPart := s.dec.intPart * 10 + x }) := .work s _ _ _ _ _ _
  simp only [doDecDigit]
  split
  · exact Flow.Quietly.after (raise_meets _ _) hset
  · exact hset.trans (.work _ _ _ _ _ _ _)

theorem doDecFrac_quietly (x : Nat) (s : State) : (doDecFrac x s).Quietly True s := by
  unfold doDecFrac
  split
  · exact raise_meets _ _
  · exact .work s _ _ _ _ _ _

theorem doDecEnd_quietly (s : State) : (doDecEnd s).Quietly True s := by
  unfold doDecEnd
  split
  · exact .work s _ _ _ _ _ _
  · exact raise_meets _ _

theorem decStep_quietly (b : Byte) (s : State) : (decStep b s).Quietly True s := by
  unfold decStep
  split
  next => exact .work s _ _ _ _ _ _
  next => exact doDecDigit_quietly _ s
  next => exact .work s _ _ _ _ _ _
  next => exact doDecFrac_quietly _ s
  next => exact raise_meets _ s

theorem decRun_quietly (bs : List Byte) (s : State) : (decRun bs s).Quietly True s := by
  induction bs generalizing s with
  | nil => exact .refl s
  | cons b bs ih => exact (decStep_quietly b s).andThen ih

theorem decParseText_quietly (bs : List Byte) (s : State) : (decParseText bs s).Quietly True s :=
  ((decRun_quietly bs _).after (.work s _ _ _ _ _ _)).andThen doDecEnd_quietly

theorem doDecParse_quietly (k : Fin 4) (s : State) : (doDecParse k s).Quietly (s.TokenInside k) s :=
  State.withToken_meets fun bs => (decParseText_quietly bs s).weaken fun _ => trivial

/-- The power-of-ten table has an entry for every exponent from -4 to 5 (R181). -/
theorem exists_scaledValue (raw : Int) {e : Int} (h : scaleMin ≤ e ∧ e ≤ scaleMax) :
    ∃ v, scaledValue raw e = some v := by
  have hentry : ∃ p, powerOfTen e = some p := by
    unfold powerOfTen
    split_ifs
    case neg => simp only [scaleMin, scaleMax] at h; omega
    all_goals exact ⟨_, rfl⟩
  obtain ⟨⟨num, den⟩, hp⟩ := hentry
  exact ⟨_, by rw [scaledValue, hp]⟩

theorem doSclScale_quietly (raw e : Int) (s : State) :
    (doSclScale raw e s).Quietly (scaleMin ≤ e ∧ e ≤ scaleMax) s := by
  unfold doSclScale
  split
  next => exact .work s _ _ _ _ _ _
  next hnone =>
    intro h
    obtain ⟨v, hv⟩ := exists_scaledValue raw h
    rw [hv] at hnone
    cases hnone

/-! ## A data line (R200 to R203) -/

/-- Every token of a line ends inside it. -/
theorem stop_le_of_mem_tokenRuns {bs : List Byte} {i : Nat} {o : Option Nat} {t : Tok} (h : t ∈ tokenRuns bs i o) :
    t.stop ≤ i + bs.length := by
  induction bs generalizing i o with
  | nil =>
    cases o with
    | none => simp [tokenRuns] at h
    | some st =>
      obtain rfl : t = ⟨st, i, true⟩ := by simpa [tokenRuns] using h
      exact Nat.le_refl i
  | cons b bs ih =>
    have hrec : ∀ {o'}, t ∈ tokenRuns bs (i + 1) o' → t.stop ≤ i + (b :: bs).length := fun ht => by
      have := ih ht
      rw [List.length_cons]
      omega
    cases o with
    | none =>
      unfold tokenRuns at h
      split at h
      · exact hrec h
      · exact hrec h
    | some st =>
      unfold tokenRuns at h
      split at h
      · obtain rfl | ht := List.mem_cons.1 h
        · exact Nat.le_add_right _ _
        · exact hrec ht
      · exact hrec h

/-- A token register that `T.SPLIT` leaves present ends inside the line (R201). -/
theorem splitTokens_stop_le {old : Vector Tok 4} {line : List Byte} {k : Fin 4}
    (hp : ((splitTokens old line).get k).present = true) : ((splitTokens old line).get k).stop ≤ line.length := by
  have hget : (splitTokens old line).get k =
      (tokenRuns line 0 none).getD k.val { old.get k with present := false } := by
    simp [splitTokens, Vector.get_eq_getElem]
  rw [hget] at hp ⊢
  rcases Nat.lt_or_ge k.val (tokenRuns line 0 none).length with hk | hk
  · rw [List.getD_eq_getElem _ _ hk]
    simpa using stop_le_of_mem_tokenRuns (List.getElem_mem hk)
  · rw [List.getD_eq_default _ _ hk] at hp
    cases hp

theorem doTSplit_meets (s : State) :
    (doTSplit s).Meets (s.alt.n ≤ s.len) (fun t => s.Quiet t ∧ ∀ k, t.TokenInside k) s.Raised := by
  refine State.withBytes_meets (fun hn => ⟨.work s _ _ _ _ _ _, fun k hp => ?_⟩) id
  have hstop := splitTokens_stop_le hp
  rw [State.bytes_length] at hstop
  exact hstop.trans hn

/-- `ID.MATCH` and `KEY.PARSE` leave the token registers alone (R202, R203). -/
theorem doIdMatch_meets (k : Fin 4) (s : State) :
    (doIdMatch k s).Meets (s.TokenInside k) (fun t => s.Quiet t ∧ t.alt.tok = s.alt.tok) s.Raised :=
  State.withToken_meets fun _ => ⟨.work s _ _ _ _ _ _, rfl⟩

theorem doKeyParse_meets (k : Fin 4) (s : State) :
    (doKeyParse k s).Meets (s.TokenInside k) (fun t => s.Quiet t ∧ t.alt.tok = s.alt.tok) s.Raised := by
  refine State.withToken_meets fun _ => ?_
  split
  · exact ⟨.work s _ _ _ _ _ _, rfl⟩
  · exact ⟨.work s _ _ _ _ _ _, rfl⟩

theorem State.TokenInside.quiet {s t : State} {k : Fin 4} (h : s.TokenInside k) (hq : s.Quiet t)
    (ht : t.alt.tok = s.alt.tok) : t.TokenInside k := by
  unfold State.TokenInside
  rw [ht, hq.len]
  exact h

theorem lDataValue_quietly (s : State) : (lDataValue s).Quietly (s.TokenInside 2) s := by
  unfold lDataValue
  split
  · exact (doDecParse_quietly 2 s).andThen fun t => .work t _ _ _ _ _ _
  · exact .refl s

theorem lDataKey_quietly (s : State) : (lDataKey s).Quietly (s.TokenInside 2) s := by
  have htok : (doRomLkp s.alt.key s).alt.tok = s.alt.tok := by
    obtain ⟨slot, -, h⟩ | ⟨-, h⟩ := doRomLkp_cases s.alt.key s
    · rw [h]
    · rw [h]
  have hrom := doRomLkp_quiet s.alt.key s
  unfold lDataKey
  split
  · exact ((lDataValue_quietly _).after hrom).weaken fun h => h.quiet hrom htok
  · exact .refl s

theorem lDataTokens_quietly (s : State) : (lDataTokens s).Quietly (∀ k, s.TokenInside k) s := by
  unfold lDataTokens
  split
  · refine ((doKeyParse_meets 1 s).mono (fun h => h 1) (fun _ => id) fun _ => id).andThen fun t ⟨hq, htok⟩ => ?_
    exact ((lDataKey_quietly t).after hq).weaken fun h => (h 2).quiet hq htok
  · exact .refl s

/-- `L.DATA` stops only where `n` exceeds `len`: its tokens lie in the line (R200, R201). -/
theorem doLData_quietly (s : State) : (doLData s).Quietly (s.alt.n ≤ s.len) s := by
  refine (doTSplit_meets s).andThen fun t ⟨hq, hin⟩ => ?_
  split
  · refine Flow.Quietly.after ?_ hq
    refine ((doIdMatch_meets 0 t).mono (fun _ => hin 0) (fun _ => id) fun _ => id).andThen fun u ⟨hu, htok⟩ => ?_
    exact ((lDataTokens_quietly u).after hu).weaken fun _ k => (hin k).quiet hu htok
  · exact hq

theorem doLStrip_meets (s : State) :
    (doLStrip s).Meets (s.len ≠ 0) (fun t => s.Quiet t ∧ t.alt.n ≤ t.len) s.Raised := by
  unfold doLStrip
  split
  next h => exact fun hne => hne h
  next =>
    refine ⟨.work s _ _ _ _ _ _, ?_⟩
    simp only [State.setAlt_alt, State.setAlt_len]
    split_ifs
    · omega
    · omega

/-! ## The walk of a frame (R252 to R262) -/

/-- One element consumed: the walker stands further on, inside the frame (R251, R263). -/
def State.Advances (s t : State) : Prop := s.Quiet t ∧ s.tlv.cur < t.tlv.cur ∧ t.tlv.cur ≤ t.len

theorem State.Quiet.advances {s t : State} {n : Nat} (hq : s.Quiet t) (hcur : t.tlv.cur = s.tlv.cur + n)
    (hn : 0 < n) (hle : s.tlv.cur + n ≤ s.len) : s.Advances t :=
  ⟨hq, by omega, by rw [hq.len]; omega⟩

theorem doStructN_meets (cnt : Byte) (s : State) : (doStructN cnt s).Meets True s.Advances s.Raised :=
  need_meets fun h => (State.Quiet.work s _ _ _ _ _ _).advances rfl (by decide) h

theorem doScale_meets (e : Byte) (s : State) : (doScale e s).Meets True s.Advances s.Raised :=
  need_meets fun h => (State.Quiet.work s _ _ _ _ _ _).advances rfl (by decide) h

theorem doUnit_meets (u : Byte) (s : State) : (doUnit u s).Meets True s.Advances s.Raised :=
  need_meets fun h => (State.Quiet.work s _ _ _ _ _ _).advances rfl (by decide) h

theorem doOcts_meets (ls : Byte) (str : List Byte) (s : State) :
    (doOcts ls str s).Meets True s.Advances s.Raised := by
  refine need_meets fun _ => need_meets fun h => ?_
  have hpos : 0 < 2 + ls.toNat := by omega
  split
  · exact (State.Quiet.work s _ _ _ _ _ _).advances rfl hpos h
  · exact (State.Quiet.work s _ _ _ _ _ _).advances rfl hpos h

theorem doU32_meets (v : Word32) (s : State) : (doU32 v s).Meets True s.Advances s.Raised :=
  need_meets fun h => (State.Quiet.work s _ _ _ _ _ _).advances rfl (by decide) h

theorem doI16_meets (v : Half) (s : State) : (doI16 v s).Meets True s.Advances s.Raised :=
  need_meets fun h => (State.Quiet.work s _ _ _ _ _ _).advances rfl (by decide) h

theorem doU16_meets (v : Half) (s : State) : (doU16 v s).Meets True s.Advances s.Raised :=
  need_meets fun h => (State.Quiet.work s _ _ _ _ _ _).advances rfl (by decide) h

/-- `UNK` reports and goes on (R261). -/
theorem doUnk_quiet (s : State) : s.Quiet (doUnk s) :=
  ⟨rfl, rfl, rfl, List.prefix_append _ _, rfl, rfl, rfl, rfl, rfl⟩

/-- One element either advances the walker or raises; it never stops (R253). -/
theorem elementStep_meets (s : State) : (elementStep s).Meets True s.Advances s.Raised := by
  refine need_meets fun h => ?_
  split
  next => exact doStructN_meets _ s
  next => exact doScale_meets _ s
  next => exact doUnit_meets _ s
  next => exact doOcts_meets _ _ s
  next => exact doU32_meets _ s
  next => exact doI16_meets _ s
  next => exact doU16_meets _ s
  next => exact (doUnk_quiet s).advances rfl Nat.one_pos h

theorem Flow.quietly_of_advances {P : Prop} {s : State} {f : Flow} (h : f.Meets P s.Advances s.Raised) :
    f.Quietly P s :=
  h.mono id (fun _ ⟨hq, _⟩ => hq) fun _ => id

/-- The walker's bound is never reached: each element takes a byte of what is left of the frame (R263). -/
theorem elementLoop_quietly {bound : Nat} {s : State} (hcur : s.tlv.cur ≤ s.len) (hb : s.len < s.tlv.cur + bound) :
    (elementLoop bound s).Quietly True s := by
  induction bound generalizing s with
  | zero => omega
  | succ bound ih =>
    unfold elementLoop
    split
    · exact .refl s
    · refine (elementStep_meets s).andThen fun t ⟨hq, hlt, hle⟩ => ?_
      have := hq.len
      exact (ih hle (by omega)).after hq

theorem doStruct_meets (cnt : Byte) (s : State) :
    (doStruct cnt s).Meets True (fun t => s.Quiet t ∧ t.tlv.cur ≤ t.len) s.Raised := by
  refine need_meets fun _ => ?_
  split
  · exact raise_meets _ s
  · exact need_meets fun h => ⟨.work s _ _ _ _ _ _, h⟩

theorem commitValue_quietly (s : State) : (commitValue s).Quietly True s := by
  unfold commitValue
  split
  next h =>
    have hrange : scaleMin ≤ s.tlv.scale.toInt ∧ s.tlv.scale.toInt ≤ scaleMax := by
      simpa only [scaleInRange, Bool.and_eq_true, decide_eq_true_eq] using h
    exact ((doSclScale_quietly _ _ s).weaken fun _ => hrange).andThen fun t => .work t _ _ _ _ _ _
  next => exact raise_meets _ s

theorem commitSlot_quietly (s : State) : (commitSlot s).Quietly True s := by
  have hrom := doRomLkp_quiet s.alt.key s
  simp only [commitSlot]
  split_ifs
  · exact (commitValue_quietly _).after hrom
  · exact hrom
  · exact .refl s

/-- `COMMIT` checks the exponent before it scales, so it never stops (R262). -/
theorem doCommit_quietly (s : State) : (doCommit s).Quietly True s :=
  (commitSlot_quietly s).andThen fun t => .work t _ _ _ _ _ _

theorem structureStep_quietly (s : State) : (structureStep s).Quietly True s := by
  have hbody := (doStruct_meets (s.elemByte 1) s).andThen fun t ⟨hq, hle⟩ =>
    (elementLoop_quietly (bound := t.len + 1 - t.tlv.cur) hle (by omega)).after hq
  exact Flow.Quietly.andThen hbody doCommit_quietly

theorem structureLoop_quietly (bound : Nat) (s : State) : (structureLoop bound s).Quietly True s := by
  induction bound generalizing s with
  | zero => exact .refl s
  | succ bound ih =>
    unfold structureLoop
    split
    · exact .refl s
    · exact (structureStep_quietly s).andThen ih

/-! ## The validation of a frame (R228 to R236) -/

theorem doVSize_meets (s : State) :
    (doVSize s).Meets True (fun t => s.Quiet t ∧ minFrame ≤ t.len) s.Raised := by
  unfold doVSize
  split
  next => exact raise_meets _ s
  next h => exact ⟨.refl s, Nat.not_lt.1 h⟩

theorem doVLen_quietly (s : State) : (doVLen s).Quietly (3 ≤ s.len) s := by
  unfold doVLen
  split_ifs
  next h => exact fun hle => Nat.not_lt.2 hle h
  · exact raise_meets _ s
  · exact .refl s

theorem doVFcs_quietly (s : State) : (doVFcs s).Quietly (3 ≤ s.len) s := by
  unfold doVFcs
  split
  next h => exact fun hle => Nat.not_lt.2 hle h
  next =>
    extract_lets t
    have ht : s.Quiet t := by
      show s.Quiet (doCrcxFin (crcxRun _ _))
      rw [crcxRun_eq]
      exact .work s _ _ _ _ _ _
    clear_value t
    split
    · exact Flow.Quietly.after (raise_meets _ t) ht
    · exact ht

/-- The three checks read below `len`, since `V.SIZE` comes first (R228). -/
theorem sizeLenFcs_quietly (s : State) :
    (((doVSize s).andThen doVLen).andThen doVFcs).Quietly True s := by
  have hlen : ((doVSize s).andThen doVLen).Meets True (fun t => s.Quiet t ∧ minFrame ≤ t.len) s.Raised := by
    refine (doVSize_meets s).andThen fun t ⟨hq, hle⟩ => ?_
    have hread : (doVLen t).Quietly True s :=
      ((doVLen_quietly t).weaken fun _ => le_trans (by decide) hle).after hq
    refine hread.mono id (fun u hu => ⟨hu, ?_⟩) fun _ => id
    rw [hu.len, ← hq.len]
    exact hle
  exact hlen.andThen fun t ⟨hq, hle⟩ => ((doVFcs_quietly t).weaken fun _ => le_trans (by decide) hle).after hq

theorem State.Quiet.setValid {s t : State} (h : s.Quiet t) (b : Bool) : (s.setValid b).Quiet (t.setValid b) where
  params := h.params
  live := h.live
  protocol := h.protocol
  trace := h.trace
  buf := h.buf
  len := h.len
  hstate := h.hstate
  env := h.env
  agg := by simp only [State.setValid_agg]; rw [h.agg]

theorem doVOk_evolves (s : State) : s.Evolves 0 0 (doVOk s) := .registers s _ _ _ _ _ _ _

theorem doHHdr_quiet (s : State) : s.Quiet (doHHdr s) := .work s _ _ _ _ _ _

theorem doHDate_quietly (dl : Byte) (s : State) : (doHDate dl s).Quietly True s :=
  need_meets fun _ => .work s _ _ _ _ _ _

theorem doArray_quietly (n : Byte) (s : State) : (doArray n s).Quietly True s := by
  refine need_meets fun _ => ?_
  split
  · exact raise_meets _ s
  · exact need_meets fun _ => .work s _ _ _ _ _ _

theorem decodeOpening_quietly (s : State) : (decodeOpening s).Quietly True s :=
  ((doHDate_quietly _ _).after (doHHdr_quiet s)).andThen fun t => doArray_quietly _ t

theorem doHDone_evolves (s : State) : s.Evolves 0 0 (doHDone s) :=
  .of_same rfl rfl rfl List.prefix_rfl rfl (Nat.zero_le _) rfl

theorem State.Quiet.validated_evolves {s u : State} (h : (doVOk s).Quiet u) : s.Evolves 0 0 (doHDone u) :=
  ((doVOk_evolves s).trans h.evolves).trans (doHDone_evolves u)

/-- From `V.OK` on a frame's validation is quiet up to `H.DONE` (R228). -/
theorem doHValidate_meets (s : State) :
    (doHValidate s).Meets True (fun t => ∃ u, (doVOk s).Quiet u ∧ t = doHDone u) s.Raised := by
  have hchecks : (validateChecks s).Meets True (doVOk s).Quiet s.Raised :=
    Flow.Meets.andThen (sizeLenFcs_quietly s) fun t ht => ht.setValid true
  have hwalk : ∀ t, (doVOk s).Quiet t →
      ((decodeOpening t).andThen fun u => structureLoop u.tlv.remStructs.toNat u).Meets True (doVOk s).Quiet s.Raised :=
    fun t ht => (((decodeOpening_quietly t).andThen fun u => structureLoop_quietly _ u).after ht).mono id
      (fun _ => id) fun _ hu => (doVOk_evolves s).raised hu
  unfold doHValidate
  rw [Flow.andThen_assoc (validateChecks s)]
  exact (hchecks.andThen hwalk).andThen fun t ht => ⟨t, ht, rfl⟩

/-! ## The invariant, by what the machine is doing -/

theorem LegalParams.bufCap_pos {p : Params} (h : LegalParams p) : 1 ≤ p.bufCap := by
  obtain ⟨hcap, -⟩ := h
  omega

/-- A line in progress holds no terminator (R83). -/
def State.NoTerminator (s : State) : Prop := ∀ i < s.len, s.buf.read i ≠ lf

theorem State.inv_of_complete {s : State} (hp : LegalParams s.params) (hb : s.BufferOk) (h1 : 1 ≤ s.agg.pubcur)
    (h28 : s.agg.pubcur ≤ 28) (hc : s.agg.complete = true) (hlen : s.len = 0) (hh : s.hstate = .outsideFrame)
    (hhdlc : s.protocol = .hdlc → s.agg.crc = 0x0000 ∧ s.agg.valid = true) : s.Inv := by
  have hnone : ∀ i < s.len, s.buf.read i ≠ 0x0A := fun i hi => absurd hi (by omega)
  refine ⟨hp, hb, h1, h28, fun h => ?_, fun _ => ⟨hlen, hh⟩, fun _ => ⟨hh, hnone⟩, fun hpr => ?_⟩
  · rw [hc] at h; cases h
  · obtain ⟨hcrc, hv⟩ := hhdlc hpr
    refine ⟨hcrc, ⟨fun _ => hlen, fun h => ?_, fun h => ?_⟩, fun _ => hv, fun h => ?_⟩
    · rw [hh] at h; cases h
    · rw [hh] at h; cases h
    · rw [hc] at h; cases h

/-- The machine between two INVOKEs of an ASCII line. -/
structure State.AsciiReady (s : State) : Prop where
  params : LegalParams s.params
  buffer : s.BufferOk
  protocol : s.protocol = .ascii
  complete : s.agg.complete = false
  valid : s.agg.valid = false
  pubcur : s.agg.pubcur = 28
  hstate : s.hstate = .outsideFrame
  line : s.NoTerminator

/-- The machine between two INVOKEs of an HDLC frame. -/
structure State.HdlcReady (s : State) : Prop where
  params : LegalParams s.params
  buffer : s.BufferOk
  protocol : s.protocol = .hdlc
  complete : s.agg.complete = false
  valid : s.agg.valid = false
  pubcur : s.agg.pubcur = 28
  crc : s.agg.crc = 0x0000
  framer : s.FramerOk
  slots : ∀ i : Fin 28, s.agg.slots.get i = 0x0000000000000000

theorem State.AsciiReady.setEnv {s : State} (h : s.AsciiReady) (e : Env) : (s.setEnv e).AsciiReady :=
  ⟨h.params, h.buffer, h.protocol, h.complete, h.valid, h.pubcur, h.hstate, h.line⟩

theorem State.HdlcReady.setEnv {s : State} (h : s.HdlcReady) (e : Env) : (s.setEnv e).HdlcReady :=
  ⟨h.params, h.buffer, h.protocol, h.complete, h.valid, h.pubcur, h.crc, h.framer, h.slots⟩

theorem State.AsciiReady.inv {s : State} (h : s.AsciiReady) : s.Inv := by
  refine ⟨h.params, h.buffer, by rw [h.pubcur]; decide, h.pubcur.le, fun _ => ⟨h.valid, h.pubcur⟩, fun hc => ?_,
    fun _ => ⟨h.hstate, h.line⟩, fun hp => ?_⟩
  · rw [h.complete] at hc; cases hc
  · rw [h.protocol] at hp; cases hp

theorem State.HdlcReady.inv {s : State} (h : s.HdlcReady) : s.Inv := by
  refine ⟨h.params, h.buffer, by rw [h.pubcur]; decide, h.pubcur.le, fun _ => ⟨h.valid, h.pubcur⟩, fun hc => ?_,
    fun hp => ?_, fun _ => ⟨h.crc, h.framer, fun hc => ?_, fun _ => h.slots⟩⟩
  · rw [h.complete] at hc; cases hc
  · rw [h.protocol] at hp; cases hp
  · rw [h.complete] at hc; cases hc

theorem State.Inv.asciiReady {s : State} (h : s.Inv) (hc : s.agg.complete = false) (hp : s.protocol = .ascii) :
    s.AsciiReady := by
  obtain ⟨hlegal, hbuf, -, -, hidle, -, hascii, -⟩ := h
  obtain ⟨hvalid, hcur⟩ := hidle hc
  obtain ⟨hh, hline⟩ := hascii hp
  exact ⟨hlegal, hbuf, hp, hc, hvalid, hcur, hh, hline⟩

theorem State.Inv.hdlcReady {s : State} (h : s.Inv) (hc : s.agg.complete = false) (hp : s.protocol = .hdlc) :
    s.HdlcReady := by
  obtain ⟨hlegal, hbuf, -, -, hidle, -, -, hhdlc⟩ := h
  obtain ⟨hvalid, hcur⟩ := hidle hc
  obtain ⟨hcrc, hframer, -, hslots⟩ := hhdlc hp
  exact ⟨hlegal, hbuf, hp, hc, hvalid, hcur, hcrc, hframer, hslots hc⟩

/-- The framer's clauses outside a frame (R28). -/
theorem State.framerOk_outside {s : State} (hlen : s.len = 0) (hh : s.hstate = .outsideFrame) : s.FramerOk := by
  refine ⟨fun _ => hlen, fun h => ?_, fun h => ?_⟩
  · rw [hh] at h; cases h
  · rw [hh] at h; cases h

/-- Every way to the initial state reaches the invariant (R362). -/
theorem State.Aborted.inv {s : State} (h : s.Aborted) (hp : LegalParams s.params) (hb : s.BufferOk) : s.Inv := by
  obtain ⟨hlen, hh, hslots, hcrc, hc, hv, hcur⟩ := h
  have hnone : s.NoTerminator := fun i hi => absurd hi (by omega)
  cases hpr : s.protocol with
  | ascii => exact State.AsciiReady.inv ⟨hp, hb, hpr, hc, hv, hcur, hh, hnone⟩
  | hdlc => exact State.HdlcReady.inv ⟨hp, hb, hpr, hc, hv, hcur, hcrc, State.framerOk_outside hlen hh, hslots⟩

theorem State.Inv.legalParams {s : State} (h : s.Inv) : LegalParams s.params := by
  obtain ⟨hp, -⟩ := h
  exact hp

theorem State.Inv.bufferOk {s : State} (h : s.Inv) : s.BufferOk := by
  obtain ⟨-, hb, -⟩ := h
  exact hb

theorem State.Evolves.legalParams {j k : Nat} {s t : State} (h : s.Evolves j k t) (hp : LegalParams s.params) :
    LegalParams t.params := h.params ▸ hp

theorem State.Evolves.bufferOk {j k : Nat} {s t : State} (h : s.Evolves j k t) (hp : LegalParams s.params)
    (hb : s.BufferOk) : t.BufferOk := h.buffer hp.bufCap_pos hb

theorem State.Raised.inv {s t : State} (h : s.Raised t) (hp : LegalParams s.params) (hb : s.BufferOk) : t.Inv :=
  h.aborted.inv (h.evolves.legalParams hp) (h.evolves.bufferOk hp hb)

/-- The invariant does not read the environment. -/
theorem State.Inv.setEnv {s : State} (h : s.Inv) (e : Env) : (s.setEnv e).Inv := h

/-! ## One byte of an ASCII stream (R103, R191 to R196) -/

/-- The state after an append (R76). -/
def State.appended (s : State) (b : Byte) : State := { s with buf := s.buf.write s.len b, len := s.len + 1 }

theorem State.appended_evolves {s : State} (b : Byte) (h : s.len < s.params.bufCap) :
    s.Evolves 0 0 (s.appended b) where
  params := rfl
  live := rfl
  protocol := rfl
  trace := List.prefix_rfl
  buffer _ hbuf := hbuf.append b h
  takes := Env.Takes.refl _

theorem State.appended_read_len {s : State} (b : Byte) (h : Memory.wf s.buf = true) :
    (s.appended b).buf.read s.len = b := Memory.read_write_same h _ _

theorem State.appended_read_lt {s : State} (b : Byte) {i : Nat} (h : i < s.len) :
    (s.appended b).buf.read i = s.buf.read i := Memory.read_write_other _ _ h.ne

/-- The append goes on with the byte stored, inside the capacity, or raises. -/
theorem bufAppend_meets (b : Byte) (s : State) :
    (bufAppend b s).Meets True (fun t => s.len < s.params.bufCap ∧ t = s.appended b) s.Raised := by
  obtain ⟨h, he⟩ | ⟨-, he⟩ := bufAppend_cases b s
  · rw [he]; exact ⟨h, rfl⟩
  · rw [he]; exact s.raised_afterAbort _

/-- The checksum feed writes `CRC` and nothing else (R191). -/
theorem feedByte_eq_setCrc (b : Byte) (s : State) : ∃ c, feedByte b s = s.setCrc c := by
  unfold feedByte
  split
  · exact ⟨_, rfl⟩
  · exact ⟨s.agg.crc, rfl⟩

theorem State.setCrc_evolves (s : State) (c : Half) : s.Evolves 0 0 (s.setCrc c) := .registers s _ _ _ _ _ _ _

/-- What the taking of a byte leaves of an ASCII machine: the cursor and `HSTATE`, both flags unless the telegram
completed, and a buffer that is empty or still holds a line in progress. -/
structure State.AsciiStep (s t : State) : Prop where
  evolves : s.Evolves 0 0 t
  hstate : t.hstate = s.hstate
  pubcur : t.agg.pubcur = s.agg.pubcur
  flags : (t.agg.complete = s.agg.complete ∧ t.agg.valid = s.agg.valid) ∨ (t.agg.complete = true ∧ t.len = 0)
  line : Memory.wf s.buf = true → s.NoTerminator → t.NoTerminator

theorem State.AsciiStep.ready {s t : State} (h : s.AsciiStep t) (hs : s.AsciiReady) (hc : t.agg.complete = false) :
    t.AsciiReady := by
  obtain ⟨hsame, hvalid⟩ | ⟨hdone, -⟩ := h.flags
  · obtain ⟨hwf, -⟩ := hs.buffer
    exact ⟨h.evolves.legalParams hs.params, h.evolves.bufferOk hs.params hs.buffer,
      h.evolves.protocol.trans hs.protocol, hc, hvalid.trans hs.valid, h.pubcur.trans hs.pubcur, h.hstate.trans hs.hstate, h.line hwf hs.line⟩
  · rw [hc] at hdone; cases hdone

theorem State.AsciiStep.inv {s t : State} (h : s.AsciiStep t) (hs : s.AsciiReady) : t.Inv := by
  obtain ⟨hsame, -⟩ | ⟨hdone, hlen⟩ := h.flags
  · exact (h.ready hs (hsame.trans hs.complete)).inv
  · have hcur : t.agg.pubcur = 28 := h.pubcur.trans hs.pubcur
    refine State.inv_of_complete (h.evolves.legalParams hs.params) (h.evolves.bufferOk hs.params hs.buffer)
      (by omega) (by omega) hdone hlen (h.hstate.trans hs.hstate) fun hp => ?_
    rw [h.evolves.protocol, hs.protocol] at hp
    cases hp

/-- `A.CHAR` feeds the byte and appends it (R191). -/
theorem doAChar_meets (b : Byte) (s : State) :
    (doAChar b s).Meets True (fun t => s.len < s.params.bufCap ∧ ∃ c, t = (s.setCrc c).appended b) s.Raised := by
  obtain ⟨c, hc⟩ := feedByte_eq_setCrc b s
  rw [doAChar, hc]
  refine (bufAppend_meets b _).mono id ?_ fun _ => (s.setCrc_evolves c).raised
  rintro t ⟨hroom, rfl⟩
  exact ⟨hroom, c, rfl⟩

theorem State.appended_feed_evolves {s : State} (c : Half) (b : Byte) (h : s.len < s.params.bufCap) :
    s.Evolves 0 0 ((s.setCrc c).appended b) :=
  (s.setCrc_evolves c).trans (State.appended_evolves b h)

/-- A byte that is no terminator, fed and stored, leaves a line in progress. -/
theorem State.AsciiStep.char {s : State} {b : Byte} (c : Half) (hb : b ≠ lf) (hroom : s.len < s.params.bufCap) :
    s.AsciiStep ((s.setCrc c).appended b) where
  evolves := State.appended_feed_evolves c b hroom
  hstate := rfl
  pubcur := rfl
  flags := .inl ⟨rfl, rfl⟩
  line hwf hline i hi := by
    rcases Nat.lt_succ_iff_lt_or_eq.1 hi with hlt | heq
    · rw [State.appended_read_lt b hlt]; exact hline i hlt
    · subst heq; exact (State.appended_read_len (s := s.setCrc c) b hwf).trans_ne hb

/-- `L.CKSUM` completes the telegram and writes nothing else a host can see but a report (R196, R321). -/
theorem doLCksum_eq (s : State) : ∃ v evs, doLCksum s =
    { s with alt := (doHexParse s).alt, agg := { s.agg with complete := true, valid := v },
             trace := s.trace ++ evs } := by
  simp only [doLCksum]
  split
  · exact ⟨_, [], by rw [List.append_nil]; rfl⟩
  · exact ⟨_, [_], rfl⟩

theorem doLCksum_evolves (s : State) : s.Evolves 0 0 (doLCksum s) := by
  obtain ⟨v, evs, h⟩ := doLCksum_eq s
  rw [h]
  exact .of_same rfl rfl rfl (List.prefix_append _ _) rfl (Nat.le_refl _) rfl

/-- A completed line is dispatched without a stop: its tokens lie in the stripped line, which lies in the buffer
(R192, R195). -/
theorem lineDispatch_meets (s : State) :
    (lineDispatch s).Meets (s.len ≠ 0) (fun t => s.Quiet t ∨ t = doLCksum s) s.Raised := by
  unfold lineDispatch
  split
  next => exact .inr rfl
  next =>
    have hdata : ((doLStrip s).andThen fun t =>
        if hasParen (t.bytes 0 t.alt.n) then doLData t else .go (doLOther t)).Quietly (s.len ≠ 0) s := by
      refine (doLStrip_meets s).andThen fun t ⟨hq, hn⟩ => ?_
      split
      · exact ((doLData_quietly t).weaken fun _ => hn).after hq
      · exact hq
    exact hdata.mono id (fun _ => .inl) fun _ => id

theorem State.setLen_zero_evolves (s : State) : s.Evolves 0 0 (s.setLen 0) :=
  .of_same rfl rfl rfl List.prefix_rfl rfl (Nat.zero_le _) rfl

/-- `A.EOL` never stops; a line that does not raise leaves the buffer empty (R192). -/
theorem doAEol_meets (s : State) : (doAEol s).Meets True s.AsciiStep s.Raised := by
  obtain ⟨c, hc⟩ := feedByte_eq_setCrc lf s
  have hfed := s.setCrc_evolves c
  rw [doAEol, hc, Flow.andThen_assoc]
  refine ((bufAppend_meets lf _).mono id (fun _ => id) fun _ => hfed.raised).andThen ?_
  rintro u ⟨hroom, rfl⟩
  have hline : s.Evolves 0 0 ((s.setCrc c).appended lf) := State.appended_feed_evolves c lf hroom
  refine ((lineDispatch_meets _).mono (fun _ => Nat.succ_ne_zero _) (fun _ => id) fun _ => hline.raised).andThen ?_
  rintro t (hq | rfl)
  · refine ⟨(hline.trans hq.evolves).trans t.setLen_zero_evolves, hq.hstate, ?_, .inl ⟨?_, ?_⟩,
      fun _ _ i hi => absurd hi (Nat.not_lt_zero i)⟩
    all_goals simp only [State.setLen_agg]; rw [hq.agg]; rfl
  · obtain ⟨v, evs, hck⟩ := doLCksum_eq ((s.setCrc c).appended lf)
    refine ⟨(hline.trans (doLCksum_evolves _)).trans (State.setLen_zero_evolves _), ?_, ?_, .inr ⟨?_, rfl⟩,
      fun _ _ i hi => absurd hi (Nat.not_lt_zero i)⟩
    all_goals rw [hck]; rfl

/-- The terminator never selects `A.CHAR` (R103). -/
theorem asciiSel_char {full : Bool} {b : Byte} (hsel : asciiSel full b = .char) : b ≠ lf := by
  unfold asciiSel at hsel
  split_ifs at hsel with _ hb
  exact hb

/-- One ASCII stream byte, from any state (R103). -/
theorem asciiByte_meets (b : Byte) (s : State) : (asciiByte b s).Meets True s.AsciiStep s.Raised := by
  unfold asciiByte
  split
  next => exact raise_meets _ s
  next => exact doAEol_meets s
  next hsel =>
    refine (doAChar_meets b s).mono id ?_ fun _ => id
    rintro t ⟨hroom, c, rfl⟩
    exact .char c (asciiSel_char hsel) hroom

/-! ## One byte of an HDLC stream (R106, R221 to R225) -/

/-- What the taking of a byte leaves of an HDLC machine: the aggregate, and the framer's clauses (R28). -/
structure State.HdlcStep (s t : State) : Prop where
  evolves : s.Evolves 0 0 t
  agg : t.agg = s.agg
  framer : Memory.wf s.buf = true → s.FramerOk → t.FramerOk

theorem State.HdlcStep.ready {s t : State} (h : s.HdlcStep t) (hs : s.HdlcReady) : t.HdlcReady := by
  obtain ⟨hwf, -⟩ := hs.buffer
  refine ⟨h.evolves.legalParams hs.params, h.evolves.bufferOk hs.params hs.buffer,
    h.evolves.protocol.trans hs.protocol, ?_, ?_, ?_, ?_, h.framer hwf hs.framer, ?_⟩
  all_goals rw [h.agg]
  · exact hs.complete
  · exact hs.valid
  · exact hs.pubcur
  · exact hs.crc
  · exact hs.slots

theorem State.HdlcStep.refl (s : State) : s.HdlcStep s := ⟨.refl s, rfl, fun _ => id⟩

theorem doHOpen_step (s : State) : s.HdlcStep (doHOpen s) where
  evolves :=
    { params := rfl, live := rfl, protocol := rfl, trace := List.prefix_rfl, takes := Env.Takes.refl _
      buffer := fun hcap ⟨hwf, hbelow, _⟩ => ⟨Memory.wf_write _ _ hwf, Memory.below_write _ hbelow hcap, hcap⟩ }
  agg := rfl
  framer hwf _ := by
    refine ⟨fun h => (nomatch h), fun _ => ⟨Nat.le_refl 1, Memory.read_write_same hwf _ _, fun i hi hpos => ?_⟩,
      fun h => (nomatch h)⟩
    exact absurd hpos (Nat.not_lt.2 (Nat.lt_succ_iff.1 hi))

theorem doHTmo_step (s : State) : s.HdlcStep (doHTmo s) where
  evolves := .of_same rfl rfl rfl List.prefix_rfl rfl (Nat.zero_le _) rfl
  agg := rfl
  framer _ _ := State.framerOk_outside rfl rfl

/-- A byte other than a flag, stored while a frame is read, leaves the frame open (R223). -/
theorem State.HdlcStep.data {s : State} {b : Byte} (hroom : s.len < s.params.bufCap) (hh : s.hstate = .readingFrame)
    (hb : b ≠ flagByte) : s.HdlcStep (s.appended b) where
  evolves := State.appended_evolves b hroom
  agg := rfl
  framer hwf hframer := by
    obtain ⟨-, hreading, -⟩ := hframer
    obtain ⟨hlen, hfirst, hbody⟩ := hreading hh
    refine ⟨fun h => ?_, fun _ => ⟨Nat.succ_pos _, ?_, fun i hi hpos => ?_⟩, fun h => ?_⟩
    · cases hh.symm.trans h
    · rw [State.appended_read_lt b hlen]; exact hfirst
    · rcases Nat.lt_succ_iff_lt_or_eq.1 hi with hlt | rfl
      · rw [State.appended_read_lt b hlt]; exact hbody i hlt hpos
      · rw [State.appended_read_len b hwf]; exact hb
    · cases hh.symm.trans h

/-- A flag stored while a frame is read closes it (R224). -/
theorem State.HdlcStep.close {s : State} (hroom : s.len < s.params.bufCap) (hh : s.hstate = .readingFrame) :
    s.HdlcStep ((s.appended flagByte).setHState .foundFrame) where
  evolves := (State.appended_evolves flagByte hroom).trans (.registers _ _ _ _ _ _ _ _)
  agg := rfl
  framer hwf hframer := by
    obtain ⟨-, hreading, -⟩ := hframer
    obtain ⟨hlen, hfirst, hbody⟩ := hreading hh
    refine ⟨fun h => (nomatch h), fun h => (nomatch h), fun _ =>
      ⟨Nat.succ_le_succ hlen, ?_, State.appended_read_len flagByte hwf, fun i hi hpos => ?_⟩⟩
    · rw [← hfirst]; exact State.appended_read_lt flagByte hlen
    · have hread : (s.appended flagByte).buf.read i = s.buf.read i := State.appended_read_lt flagByte hi
      rw [State.setHState_buf, hread]
      exact hbody i hi hpos

/-- The framer takes data and closes a frame only while it reads one (R106). -/
theorem hdlcSel_data {h : HState} {full : Bool} {b : Byte} (hsel : hdlcSel h full b = .data) :
    h = .readingFrame ∧ b ≠ flagByte := by
  cases h <;> simp only [hdlcSel] at hsel
  case readingFrame =>
    split_ifs at hsel with _ hb
    exact ⟨rfl, hb⟩
  case outsideFrame => split_ifs at hsel
  case foundFrame => cases hsel

theorem hdlcSel_closeFrame {h : HState} {full : Bool} {b : Byte} (hsel : hdlcSel h full b = .closeFrame) :
    h = .readingFrame := by
  cases h <;> simp only [hdlcSel] at hsel
  case readingFrame => rfl
  case outsideFrame => split_ifs at hsel
  case foundFrame => cases hsel

theorem hdlcSel_noByte {h : HState} {full : Bool} {b : Byte} (hsel : hdlcSel h full b = .noByte) :
    h = .foundFrame := by
  cases h <;> simp only [hdlcSel] at hsel
  case foundFrame => rfl
  all_goals split_ifs at hsel

theorem doHData_meets (b : Byte) (s : State) :
    (doHData b s).Meets True (fun t => s.len < s.params.bufCap ∧ t = s.appended b) s.Raised := bufAppend_meets b s

theorem doHClose_meets (s : State) :
    (doHClose s).Meets True
      (fun t => s.len < s.params.bufCap ∧ t = (s.appended flagByte).setHState .foundFrame) s.Raised := by
  refine (bufAppend_meets flagByte s).andThen ?_
  rintro t ⟨hroom, rfl⟩
  exact ⟨hroom, rfl⟩

/-- One HDLC stream byte; it stops only in `FOUND_FRAME`, where no byte is taken (R106). -/
theorem hdlcByte_meets (b : Byte) (s : State) :
    (hdlcByte b s).Meets (s.hstate ≠ .foundFrame) s.HdlcStep s.Raised := by
  unfold hdlcByte
  split
  next => exact .refl s
  next => exact doHOpen_step s
  next hsel =>
    obtain ⟨hh, hb⟩ := hdlcSel_data hsel
    refine (doHData_meets b s).mono (fun _ => trivial) ?_ fun _ => id
    rintro t ⟨hroom, rfl⟩
    exact .data hroom hh hb
  next hsel =>
    have hh := hdlcSel_closeFrame hsel
    refine (doHClose_meets s).mono (fun _ => trivial) ?_ fun _ => id
    rintro t ⟨hroom, rfl⟩
    exact .close hroom hh
  next => exact raise_meets _ s
  next hsel => exact fun hne => hne (hdlcSel_noByte hsel)

/-! ## The intake loops (R297, R298) -/

/-- The loop that `parseAscii` and `parseHdlc` have in common: at most `j` bytes, `done` the mandatory stop, `dry` what
an empty queue does. -/
def intake (byte : Byte → State → Flow) (done : State → Bool) (dry : State → State) : Nat → State → Flow
  | 0, s => .go s
  | j + 1, s =>
    match (arriveNext s).env.queue with
    | [] => .go (dry (arriveNext s))
    | b :: q =>
      (byte b ((arriveNext s).setQueue q)).andThen fun t => if done t then .go t else intake byte done dry j t

theorem parseAscii_eq_intake (j : Nat) : parseAscii j = intake asciiByte (fun t => t.agg.complete) id j := by
  induction j with
  | zero => rfl
  | succ j ih =>
    funext s
    cases h : (arriveNext s).env.queue with
    | nil => simp only [parseAscii, intake, h, id]
    | cons b q => simp only [parseAscii, intake, h, ih]

theorem parseHdlc_eq_intake (j : Nat) :
    parseHdlc j = intake hdlcByte (fun t => decide (t.hstate = .foundFrame)) hdlcDry j := by
  induction j with
  | zero => rfl
  | succ j ih =>
    funext s
    cases h : (arriveNext s).env.queue with
    | nil => simp only [parseHdlc, intake, h]
    | cons b q => simp only [parseHdlc, intake, h, ih, decide_eq_true_eq]

/-- A query of the queue takes one entry of the schedule, if there is one (R62). -/
theorem arriveNext_eq (s : State) : arriveNext s =
    s.setEnv { s.env with queue := s.env.queue ++ (s.env.arrivals.take 1).flatten,
                          arrivals := s.env.arrivals.drop 1 } := by
  unfold arriveNext
  cases h : s.env.arrivals with
  | nil =>
    have henv : s.env = { s.env with arrivals := [] } := by rw [← h]
    simp only [List.take_nil, List.flatten_nil, List.append_nil, List.drop_nil]
    rw [← henv]
    rfl
  | cons c cs => simp

/-- Nothing but the environment changes. -/
theorem State.Evolves.setEnv {j k : Nat} {s : State} {e : Env} (h : s.env.Takes j k e) :
    s.Evolves j k (s.setEnv e) where
  params := rfl
  live := rfl
  protocol := rfl
  trace := List.prefix_rfl
  buffer _ hbuf := hbuf
  takes := h

theorem arriveNext_evolves (s : State) : s.Evolves 0 1 (arriveNext s) := by
  rw [arriveNext_eq]
  exact .setEnv ⟨[], Nat.le_refl 0, rfl, rfl, rfl⟩

/-- One byte taken from the queue after a query (R299). -/
theorem take_evolves {s : State} {b : Byte} {q : List Byte} (h : (arriveNext s).env.queue = b :: q) :
    s.Evolves 1 1 ((arriveNext s).setQueue q) := by
  have hpop : (arriveNext s).Evolves 1 0 ((arriveNext s).setQueue q) :=
    .setEnv ⟨[b], Nat.le_refl 1, by simp [h], rfl, rfl⟩
  exact (arriveNext_evolves s).trans hpop

/-- The rule of the intake loops. `I` holds where a byte may be taken, `O` where the loop may end; neither reads the
environment. -/
theorem intake_meets {byte : Byte → State → Flow} {done : State → Bool} {dry : State → State} {I O : State → Prop}
    (henv : ∀ s e, I s → I (s.setEnv e)) (hend : ∀ s, I s → O s) (hdry : ∀ s, I s → s.Evolves 0 0 (dry s) ∧ O (dry s))
    (hbyte : ∀ b s, I s →
      (byte b s).Meets True (fun t => s.Evolves 0 0 t ∧ O t ∧ (done t = false → I t))
        (fun t => s.Evolves 0 0 t ∧ O t))
    (j : Nat) {s : State} (h : I s) :
    (intake byte done dry j s).Meets True (fun t => (∃ k, s.Evolves j k t) ∧ O t)
      (fun t => (∃ k, s.Evolves j k t) ∧ O t) := by
  induction j generalizing s with
  | zero => exact ⟨⟨0, .refl s⟩, hend s h⟩
  | succ j ih =>
    have harrive : I (arriveNext s) := by rw [arriveNext_eq]; exact henv s _ h
    unfold intake
    split
    next =>
      obtain ⟨hev, hO⟩ := hdry _ harrive
      exact ⟨⟨1, ((arriveNext_evolves s).trans hev).mono (Nat.zero_le _)⟩, hO⟩
    next b q hq =>
      have htake := take_evolves hq
      refine ((hbyte b _ (henv _ _ harrive)).mono id (fun _ => id) ?_).andThen ?_
      · rintro t ⟨hev, hO⟩
        exact ⟨⟨1, (htake.trans hev).mono (by omega)⟩, hO⟩
      · rintro t ⟨hev, hO, hI⟩
        have hround : s.Evolves 1 1 t := htake.trans hev
        split
        next => exact ⟨⟨1, hround.mono (by omega)⟩, hO⟩
        next hd =>
          refine (ih (hI (by simpa using hd))).mono id ?_ ?_
          all_goals
            rintro u ⟨⟨k, hu⟩, hOu⟩
            exact ⟨⟨1 + k, (hround.trans hu).mono (by omega)⟩, hOu⟩

/-- What an intake of at most `j` bytes leaves: from a machine `Ready` for it, the invariant. -/
structure State.Parsed (Ready : State → Prop) (j : Nat) (s t : State) : Prop where
  evolves : ∃ k, s.Evolves j k t
  inv : Ready s → t.Inv

/-- The ASCII intake never stops (R297). -/
theorem parseAscii_meets (j : Nat) (s : State) :
    (parseAscii j s).Meets True (s.Parsed State.AsciiReady j) (s.Parsed State.AsciiReady j) := by
  have hloop := intake_meets (byte := asciiByte) (done := fun t => t.agg.complete) (dry := id)
    (I := fun t => s.AsciiReady → t.AsciiReady) (O := fun t => s.AsciiReady → t.Inv)
    (fun _ e h hs => (h hs).setEnv e) (fun _ h hs => (h hs).inv) (fun t h => ⟨.refl t, fun hs => (h hs).inv⟩)
    (fun b t h => (asciiByte_meets b t).mono id
      (fun u hu => ⟨hu.evolves, fun hs => hu.inv (h hs), fun hd hs => hu.ready (h hs) hd⟩)
      fun u hu => ⟨hu.evolves, fun hs => hu.inv (h hs).params (h hs).buffer⟩)
    j (s := s) id
  rw [parseAscii_eq_intake]
  exact hloop.mono id (fun t ⟨hev, hinv⟩ => ⟨hev, hinv⟩) fun t ⟨hev, hinv⟩ => ⟨hev, hinv⟩

theorem hdlcDry_step (s : State) : s.HdlcStep (hdlcDry s) := by
  unfold hdlcDry
  split
  · exact doHTmo_step s
  · exact .refl s

/-- The HDLC intake, entered outside `FOUND_FRAME`, never stops (R298). -/
theorem parseHdlc_meets (j : Nat) {s : State} (hne : s.hstate ≠ .foundFrame) :
    (parseHdlc j s).Meets True (s.Parsed State.HdlcReady j) (s.Parsed State.HdlcReady j) := by
  have hloop := intake_meets (byte := hdlcByte) (done := fun t => decide (t.hstate = .foundFrame)) (dry := hdlcDry)
    (I := fun t => t.hstate ≠ .foundFrame ∧ (s.HdlcReady → t.HdlcReady)) (O := fun t => s.HdlcReady → t.Inv)
    (fun _ e ⟨hh, h⟩ => ⟨hh, fun hs => (h hs).setEnv e⟩) (fun _ ⟨_, h⟩ hs => (h hs).inv)
    (fun t ⟨_, h⟩ => ⟨(hdlcDry_step t).evolves, fun hs => ((hdlcDry_step t).ready (h hs)).inv⟩)
    (fun b t ⟨hh, h⟩ => (hdlcByte_meets b t).mono (fun _ => hh)
      (fun u hu => ⟨hu.evolves, fun hs => (hu.ready (h hs)).inv,
        fun hd => ⟨of_decide_eq_false hd, fun hs => hu.ready (h hs)⟩⟩)
      fun u hu => ⟨hu.evolves, fun hs => hu.inv (h hs).params (h hs).buffer⟩)
    j ⟨hne, id⟩
  rw [parseHdlc_eq_intake]
  exact hloop.mono id (fun t ⟨hev, hinv⟩ => ⟨hev, hinv⟩) fun t ⟨hev, hinv⟩ => ⟨hev, hinv⟩

/-! ## The drain (R293, R295) -/

/-- `k` deliveries append events, count the cursor down, and change nothing else. -/
def State.Delivered (k : Nat) (s t : State) : Prop :=
  ∃ evs, t = { s with trace := s.trace ++ evs, agg := { s.agg with pubcur := s.agg.pubcur - k } }

theorem State.Delivered.evolves {k : Nat} {s t : State} (h : s.Delivered k t) : s.Evolves 0 0 t := by
  obtain ⟨evs, rfl⟩ := h
  exact .of_same rfl rfl rfl (List.prefix_append _ _) rfl (Nat.le_refl _) rfl

theorem doAggDlv_meets (s : State) {E : State → Prop} :
    (doAggDlv s).Meets (1 ≤ s.agg.pubcur ∧ s.agg.pubcur ≤ 28) (s.Delivered 1) E := by
  by_cases h : 1 ≤ s.agg.pubcur ∧ s.agg.pubcur ≤ 28
  · rw [doAggDlv_of_le h.1 h.2]
    exact ⟨_, rfl⟩
  · rw [doAggDlv, dif_neg h]
    exact h

theorem deliverRun_meets (k : Nat) (s : State) {E : State → Prop} :
    (deliverRun k s).Meets (k ≤ s.agg.pubcur ∧ s.agg.pubcur ≤ 28) (s.Delivered k) E := by
  induction k generalizing s with
  | zero => exact ⟨[], by simp⟩
  | succ k ih =>
    refine ((doAggDlv_meets s).mono (fun h => ⟨by omega, h.2⟩) (fun _ => id) fun _ => id).andThen ?_
    rintro t ⟨evs, rfl⟩
    refine (ih _).mono ?_ ?_ fun _ => id
    · rintro ⟨hk, h28⟩
      exact ⟨show k ≤ s.agg.pubcur - 1 by omega, show s.agg.pubcur - 1 ≤ 28 by omega⟩
    · rintro u ⟨evs', rfl⟩
      refine ⟨evs ++ evs', ?_⟩
      simp only [List.append_assoc, Nat.sub_sub, Nat.add_comm 1 k]

theorem State.aggInit_evolves (s : State) : s.Evolves 0 0 s.aggInit := .registers s _ _ _ _ _ _ _

/-- `AGG.INIT` of a complete telegram leaves what R362 says, its buffer being empty already. -/
theorem State.Inv.aggInit {s : State} (h : s.Inv) (hc : s.agg.complete = true) : s.aggInit.Inv := by
  obtain ⟨hp, hb, -, -, -, hdone, -, -⟩ := h
  obtain ⟨hlen, hh⟩ := hdone hc
  exact State.Aborted.inv ⟨hlen, hh, Agg.init_atRest⟩ hp hb

/-- Deliveries short of the last slot's keep the invariant (R25). -/
theorem State.Inv.delivered {k : Nat} {s t : State} (h : s.Inv) (hc : s.agg.complete = true) (hd : s.Delivered k t)
    (hcur : 1 ≤ t.agg.pubcur) : t.Inv := by
  obtain ⟨hp, hb, -, h28, -, hdone, -, hhdlc⟩ := h
  obtain ⟨hlen, hh⟩ := hdone hc
  obtain ⟨evs, rfl⟩ := hd
  refine State.inv_of_complete hp hb hcur ((Nat.sub_le _ _).trans h28) hc hlen hh fun hpr => ?_
  obtain ⟨hcrc, -, hvalid, -⟩ := hhdlc hpr
  exact ⟨hcrc, hvalid hc⟩

/-- `F.DRAIN` stops only at a cursor above 28; from a complete telegram it keeps the invariant (R295). -/
theorem doFDrain_meets (s : State) {E : State → Prop} :
    (doFDrain s).Meets (s.agg.pubcur ≤ 28)
      (fun t => s.Evolves 0 0 t ∧ (s.Inv → s.agg.complete = true → t.Inv)) E := by
  refine ((deliverRun_meets _ s).mono (fun h => ⟨Nat.min_le_right _ _, h⟩) (fun _ => id) fun _ => id).andThen ?_
  intro t hd
  have hev := hd.evolves
  split
  next =>
    refine ⟨hev.trans t.aggInit_evolves, fun h hc => ?_⟩
    obtain ⟨evs, rfl⟩ := hd
    exact h.aggInit hc
  next hne => exact ⟨hev, fun h hc => h.delivered hc hd (by omega)⟩

/-! ## INVOKE (R294) -/

/-- A validated frame keeps the invariant: both flags set, the buffer empty, `CRC` untouched (R228, R236). -/
theorem State.HdlcReady.validated {s u : State} (h : s.HdlcReady) (hq : (doVOk s).Quiet u) : (doHDone u).Inv := by
  have hev := hq.validated_evolves
  have hcur : (doHDone u).agg.pubcur = 28 := by
    show u.agg.pubcur = 28
    rw [hq.agg]; exact h.pubcur
  refine State.inv_of_complete (hev.legalParams h.params) (hev.bufferOk h.params h.buffer) (by omega) (by omega)
    rfl rfl rfl fun _ => ⟨?_, ?_⟩
  · show u.agg.crc = 0x0000
    rw [hq.agg]; exact h.crc
  · show u.agg.valid = true
    rw [hq.agg]; rfl

/-- What `F.PARSE.H` leaves: in `FOUND_FRAME` it takes no byte (R298). -/
structure State.FrameParsed (s t : State) : Prop extends s.Parsed State.HdlcReady s.env.budget.val t where
  still : s.hstate = .foundFrame → s.Evolves 0 0 t

/-- `F.PARSE.H` never stops (R298). -/
theorem doFParseH_meets (s : State) : (doFParseH s).Meets True s.FrameParsed s.FrameParsed := by
  unfold doFParseH
  split
  next hfound =>
    have hstill : ∀ t, s.Evolves 0 0 t → (s.HdlcReady → t.Inv) → s.FrameParsed t := fun t hev hinv =>
      ⟨⟨⟨0, hev.mono (Nat.zero_le _)⟩, hinv⟩, fun _ => hev⟩
    refine (doHValidate_meets s).mono id ?_ fun t ht => hstill t ht.evolves fun hs => ht.inv hs.params hs.buffer
    rintro t ⟨u, hq, rfl⟩
    exact hstill _ hq.validated_evolves fun hs => hs.validated hq
  next hne =>
    have hparsed : ∀ t, s.Parsed State.HdlcReady s.env.budget.val t → s.FrameParsed t := fun t ht =>
      ⟨ht, fun h => absurd h hne⟩
    exact (parseHdlc_meets _ hne).mono id hparsed hparsed

/-- What an INVOKE leaves: bytes taken within the budget, none while it drains, discards or validates, and the
invariant kept. -/
structure State.Invoked (s t : State) : Prop where
  evolves : ∃ k, s.Evolves s.env.budget.val k t
  still : s.agg.complete = true ∨ (s.protocol = .hdlc ∧ s.hstate = .foundFrame) → s.Evolves 0 0 t
  inv : s.Inv → t.Inv

theorem State.Invoked.of_still {s t : State} (h : s.Evolves 0 0 t) (hinv : s.Inv → t.Inv) : s.Invoked t :=
  ⟨⟨0, h.mono (Nat.zero_le _)⟩, fun _ => h, hinv⟩

theorem State.Parsed.invoked {s t : State} (h : s.Parsed State.AsciiReady s.env.budget.val t)
    (hc : s.agg.complete = false) (hp : s.protocol = .ascii) : s.Invoked t := by
  refine ⟨h.evolves, ?_, fun hs => h.inv (hs.asciiReady hc hp)⟩
  rintro (hdone | ⟨hhdlc, -⟩)
  · rw [hc] at hdone; cases hdone
  · rw [hp] at hhdlc; cases hhdlc

theorem State.FrameParsed.invoked {s t : State} (h : s.FrameParsed t) (hc : s.agg.complete = false)
    (hp : s.protocol = .hdlc) : s.Invoked t := by
  refine ⟨h.evolves, ?_, fun hs => h.inv (hs.hdlcReady hc hp)⟩
  rintro (hdone | ⟨-, hfound⟩)
  · rw [hc] at hdone; cases hdone
  · exact h.still hfound

/-- An INVOKE stops only at a cursor above 28 (R294). -/
theorem doInvoke_meets (s : State) : (doInvoke s).Meets (s.agg.pubcur ≤ 28) s.Invoked s.Invoked := by
  unfold doInvoke
  split
  next hc =>
    split
    next => exact (doFDrain_meets s).mono id (fun t ⟨hev, hinv⟩ => .of_still hev fun h => hinv h hc) fun _ => id
    next => exact .of_still s.aggInit_evolves fun h => h.aggInit hc
  next hc =>
    have hidle : s.agg.complete = false := Bool.eq_false_of_not_eq_true hc
    split
    next hp =>
      exact (parseAscii_meets _ s).mono (fun _ => trivial) (fun _ ht => ht.invoked hidle hp) fun _ ht =>
        ht.invoked hidle hp
    next hp =>
      exact (doFParseH_meets s).mono (fun _ => trivial) (fun _ ht => ht.invoked hidle hp) fun _ ht =>
        ht.invoked hidle hp

/-! ## Every operation -/

theorem doReset_aborted (p : Protocol) (s : State) : (doReset p s).Aborted := ⟨rfl, rfl, Agg.init_atRest⟩

theorem doAbort_raised (s : State) : s.Raised (doAbort s) where
  evolves := .of_same rfl rfl rfl List.prefix_rfl rfl (Nat.zero_le _) rfl
  aborted := ⟨rfl, rfl, Agg.init_atRest⟩

theorem Flow.Meets.exists_evolves {P : Prop} {G E : State → Prop} {s t : State} {f : Flow}
    (h : f.Meets P G E) (hG : ∀ u, G u → ∃ j k, s.Evolves j k u) (hE : ∀ u, E u → ∃ j k, s.Evolves j k u)
    (hout : f.outcome = .next t) : ∃ j k, s.Evolves j k t :=
  (h.mono id hG hE).post.outcome hout

/-- A raise aside, what a flow's next states have in common. -/
theorem Flow.Meets.evolves_of_next {P : Prop} {G : State → Prop} {s t : State} {f : Flow}
    (h : f.Meets P G s.Raised) (hG : ∀ u, G u → s.Evolves 0 0 u) (hout : f.outcome = .next t) :
    ∃ j k, s.Evolves j k t :=
  h.exists_evolves (fun u hu => ⟨0, 0, hG u hu⟩) (fun _ hu => ⟨0, 0, hu.evolves⟩) hout

theorem Flow.Quietly.evolves_of_next {P : Prop} {s t : State} {f : Flow} (h : f.Quietly P s)
    (hout : f.outcome = .next t) : ∃ j k, s.Evolves j k t :=
  Flow.Meets.evolves_of_next h (fun _ hu => hu.evolves) hout

/-- Every operation but RESET keeps the configuration and the buffer's form (R20, R57, R61, R76). -/
theorem exec_evolves {i : Instr} {s t : State} (hi : ∀ p, i ≠ .reset p) (h : exec i s = .next t) :
    ∃ j k, s.Evolves j k t := by
  cases i with
  | reset p => exact absurd rfl (hi p)
  | nop _ => cases h; exact ⟨0, 0, .refl s⟩
  | invoke =>
    exact (doInvoke_meets s).exists_evolves (fun _ hu => ⟨_, hu.evolves⟩) (fun _ hu => ⟨_, hu.evolves⟩) h
  | abort => cases h; exact ⟨0, 0, (doAbort_raised s).evolves⟩
  | fDrain => exact (doFDrain_meets s).evolves_of_next (fun _ ⟨hev, _⟩ => hev) h
  | fDiscard => cases h; exact ⟨0, 0, s.aggInit_evolves⟩
  | fParseA =>
    exact (parseAscii_meets _ s).exists_evolves (fun _ hu => ⟨_, hu.evolves⟩) (fun _ hu => ⟨_, hu.evolves⟩) h
  | fParseH =>
    exact (doFParseH_meets s).exists_evolves (fun _ hu => ⟨_, hu.evolves⟩) (fun _ hu => ⟨_, hu.evolves⟩) h
  | aggInit => cases h; exact ⟨0, 0, s.aggInit_evolves⟩
  | aggDlv => exact (doAggDlv_meets s).evolves_of_next (fun _ hd => hd.evolves) h
  | crcaClr => cases h; exact ⟨0, 0, s.setCrc_evolves _⟩
  | crcaUpd b => cases h; exact ⟨0, 0, s.setCrc_evolves _⟩
  | romLkp key => cases h; exact ⟨0, 0, (doRomLkp_quiet key s).evolves⟩
  | decParse k => exact (doDecParse_quietly k s).evolves_of_next h
  | decDigit d => exact (doDecDigit_quietly _ s).evolves_of_next h
  | decFrac d => exact (doDecFrac_quietly _ s).evolves_of_next h
  | decEnd => exact (doDecEnd_quietly s).evolves_of_next h
  | sclScale raw e => exact (doSclScale_quietly raw e s).evolves_of_next h
  | decBad _ | aOvf _ | hOvf _ => cases h; exact ⟨0, 0, (s.raised_afterAbort _).evolves⟩
  | aChar b =>
    refine (doAChar_meets b s).evolves_of_next ?_ h
    rintro u ⟨hroom, c, rfl⟩
    exact State.appended_feed_evolves c b hroom
  | aEol => exact (doAEol_meets s).evolves_of_next (fun _ hu => hu.evolves) h
  | lCksum => cases h; exact ⟨0, 0, doLCksum_evolves s⟩
  | lOther => cases h; exact ⟨0, 0, .refl s⟩
  | lStrip => exact (doLStrip_meets s).evolves_of_next (fun _ ⟨hq, _⟩ => hq.evolves) h
  | lData => exact (doLData_quietly s).evolves_of_next h
  | tSplit => exact (doTSplit_meets s).evolves_of_next (fun _ ⟨hq, _⟩ => hq.evolves) h
  | idMatch k => exact (doIdMatch_meets k s).evolves_of_next (fun _ ⟨hq, _⟩ => hq.evolves) h
  | keyParse k => exact (doKeyParse_meets k s).evolves_of_next (fun _ ⟨hq, _⟩ => hq.evolves) h
  | hSkip _ => cases h; exact ⟨0, 0, .refl s⟩
  | hOpen => cases h; exact ⟨0, 0, (doHOpen_step s).evolves⟩
  | hData b =>
    exact (doHData_meets b s).evolves_of_next (fun _ ⟨hroom, hu⟩ => hu ▸ State.appended_evolves b hroom) h
  | hClose =>
    refine (doHClose_meets s).evolves_of_next ?_ h
    rintro u ⟨hroom, rfl⟩
    exact (State.appended_evolves flagByte hroom).trans (.registers _ _ _ _ _ _ _ _)
  | hTmo => cases h; exact ⟨0, 0, (doHTmo_step s).evolves⟩
  | hValidate =>
    refine (doHValidate_meets s).evolves_of_next ?_ h
    rintro t ⟨u, hq, rfl⟩
    exact hq.validated_evolves
  | vSize => exact (doVSize_meets s).evolves_of_next (fun _ ⟨hq, _⟩ => hq.evolves) h
  | vLen => exact (doVLen_quietly s).evolves_of_next h
  | vFcs => exact (doVFcs_quietly s).evolves_of_next h
  | vOk => cases h; exact ⟨0, 0, doVOk_evolves s⟩
  | hDate dl => exact (doHDate_quietly dl s).evolves_of_next h
  | array n => exact (doArray_quietly n s).evolves_of_next h
  | hDone => cases h; exact ⟨0, 0, doHDone_evolves s⟩
  | struct cnt => exact (doStruct_meets cnt s).evolves_of_next (fun _ ⟨hq, _⟩ => hq.evolves) h
  | structN cnt => exact (Flow.quietly_of_advances (doStructN_meets cnt s)).evolves_of_next h
  | scale e => exact (Flow.quietly_of_advances (doScale_meets e s)).evolves_of_next h
  | unit u => exact (Flow.quietly_of_advances (doUnit_meets u s)).evolves_of_next h
  | octs ls str => exact (Flow.quietly_of_advances (doOcts_meets ls str s)).evolves_of_next h
  | u32 v => exact (Flow.quietly_of_advances (doU32_meets v s)).evolves_of_next h
  | i16 v => exact (Flow.quietly_of_advances (doI16_meets v s)).evolves_of_next h
  | u16 v => exact (Flow.quietly_of_advances (doU16_meets v s)).evolves_of_next h
  | unk _ => cases h; exact ⟨0, 0, (doUnk_quiet s).evolves⟩
  | commit => exact (doCommit_quietly s).evolves_of_next h
  -- what is left writes a slot or working registers alone, the ROM's rows among them
  | _ => cases h; exact ⟨0, 0, (State.Quiet.work s _ _ _ _ _ _).evolves⟩

/-! ## The statements -/

/-- Settles O14: every operation but RESET evolves the state, and RESET writes no parameter. -/
theorem configurationFixed : Obligations.ConfigurationFixed := by
  intro i s t h
  by_cases hi : ∀ p, i ≠ .reset p
  · obtain ⟨j, k, hev⟩ := exec_evolves hi h
    exact ⟨hev.params, fun _ => ⟨hev.protocol, hev.live⟩⟩
  · simp only [not_forall, not_not] at hi
    obtain ⟨p, rfl⟩ := hi
    cases h
    exact ⟨rfl, fun hne => absurd rfl (hne p)⟩

/-- Settles O59: as O14; RESET writes no byte and empties the buffer. -/
theorem bufferKept : Obligations.BufferKept := by
  intro i s t hcap hbuf h
  by_cases hi : ∀ p, i ≠ .reset p
  · obtain ⟨j, k, hev⟩ := exec_evolves hi h
    exact hev.buffer hcap hbuf
  · simp only [not_forall, not_not] at hi
    obtain ⟨p, rfl⟩ := hi
    cases h
    exact (doAbort_raised s).evolves.buffer hcap hbuf

/-- Settles O15, by what `doInvoke_meets` says of the queue. -/
theorem queueConsumed : Obligations.QueueConsumed := by
  intro s t h
  have hinvoked : s.Invoked t := (doInvoke_meets s).post.outcome h
  obtain ⟨k, hev⟩ := hinvoked.evolves
  by_cases hc : s.agg.complete = true ∨ (s.protocol = .hdlc ∧ s.hstate = .foundFrame)
  · obtain ⟨taken, hlen, hqueue, harr, hport⟩ := (hinvoked.still hc).takes
    obtain rfl : taken = [] := List.length_eq_zero_iff.1 (Nat.le_zero.1 hlen)
    exact ⟨[], 0, Nat.zero_le _, hqueue, harr, hport, fun _ => ⟨rfl, rfl⟩⟩
  · obtain ⟨taken, hlen, hqueue, harr, hport⟩ := hev.takes
    exact ⟨taken, k, hlen, hqueue, harr, hport, fun h => absurd h hc⟩

theorem State.Inv.pubcur_le {s : State} (h : s.Inv) : s.agg.pubcur ≤ 28 := by
  obtain ⟨-, -, -, h28, -⟩ := h
  exact h28

/-- Settles O9: an INVOKE and the two parses stop nowhere in the invariant and keep it. -/
theorem invokeCompletes : Obligations.InvokeCompletes := by
  intro s hs completes
  refine ⟨?_, fun hc hp => ?_, fun hc hp => ?_⟩
  · obtain ⟨t, he, ht⟩ := (doInvoke_meets s).next hs.pubcur_le
    obtain ⟨k, hev⟩ := ht.evolves
    exact ⟨t, he, ht.inv hs, hev.params, hev.protocol, hev.trace⟩
  · obtain ⟨t, he, ht⟩ := (parseAscii_meets s.env.budget.val s).next trivial
    obtain ⟨k, hev⟩ := ht.evolves
    exact ⟨t, he, ht.inv (hs.asciiReady hc hp), hev.params, hev.protocol, hev.trace⟩
  · obtain ⟨t, he, ht⟩ := (doFParseH_meets s).next trivial
    obtain ⟨k, hev⟩ := ht.evolves
    exact ⟨t, he, ht.inv (hs.hdlcReady hc hp), hev.params, hev.protocol, hev.trace⟩

/-- What the host port can select keeps the invariant. -/
theorem exec_decodePort_inv {ev : HostEvent} {s t : State} (h : s.Inv) (he : exec (decodePort ev) s = .next t) :
    t.Inv := by
  obtain ⟨p, hi⟩ | ⟨r, hi⟩ | hi | hi := decodePort_cases ev
  all_goals rw [hi] at he
  case inl =>
    have hbuf := bufferKept _ _ _ h.legalParams.bufCap_pos h.bufferOk he
    cases he
    exact (doReset_aborted p s).inv h.legalParams hbuf
  case inr.inl => cases he; exact h
  case inr.inr.inl =>
    have hinvoked : s.Invoked t := (doInvoke_meets s).post.outcome he
    exact hinvoked.inv h
  case inr.inr.inr => cases he; exact (doAbort_raised s).inv h.legalParams h.bufferOk

theorem acceptEvent_inv {s : State} (h : s.Inv) : (acceptEvent s).Inv := by
  unfold acceptEvent
  split
  · exact h
  · exact h.setEnv _

/-- Settles O3: the port's operation keeps the invariant, and neither taking the event nor settling it touches what the
invariant reads. -/
theorem invKeptByStep : Obligations.InvKeptByStep := by
  intro s t h hstep
  obtain ⟨u, hexec, rfl⟩ := step_eq_next hstep
  exact (exec_decodePort_inv (acceptEvent_inv h) hexec).setEnv _

end Sys2Proof.Machine
end

section
/-! PROOFS for the family of 20_memory.md. Reads outside the buffer and other uses the spec leaves undefined stop by name
(R78), a byte for a full buffer is refused (R76), and the frame check reads the stored checksum in the order of R73. -/

namespace Sys2Proof.Machine

/-! ## Where an operation stops (R78, R181, R199, R293) -/

theorem doAggDlv_stops {s : State} (h : s.agg.pubcur = 0 ∨ 28 < s.agg.pubcur) :
    doAggDlv s = .stop .noSlotToDeliver := by
  have hcur : ¬ (1 ≤ s.agg.pubcur ∧ s.agg.pubcur ≤ 28) := by omega
  rw [doAggDlv, dif_neg hcur]

/-- The power-of-ten table ends at -4 and at 5 (R181). -/
theorem powerOfTen_eq_none {e : Int} (h : e < scaleMin ∨ scaleMax < e) : powerOfTen e = none := by
  unfold powerOfTen
  split_ifs
  case neg => rfl
  all_goals simp only [scaleMin, scaleMax] at h; omega

theorem doSclScale_stops {raw e : Int} (s : State) (h : e < scaleMin ∨ scaleMax < e) :
    doSclScale raw e s = .stop .noPowerOfTen := by
  rw [doSclScale, scaledValue, powerOfTen_eq_none h]

theorem doLStrip_stops {s : State} (h : s.len = 0) : doLStrip s = .stop .noCompletedLine := by
  rw [doLStrip, if_pos h]

theorem doVLen_stops {s : State} (h : s.len < 3) : doVLen s = .stop .bufReadPastLen := by
  rw [doVLen, if_pos h]

theorem doVFcs_stops {s : State} (h : s.len < 3) : doVFcs s = .stop .bufReadPastLen := by
  rw [doVFcs, if_pos h]

/-- A present token that ends past `len` has no text. -/
theorem State.withToken_stops {s : State} {t : Tok} {k : List Byte → Flow} (hp : t.present = true)
    (h : s.len < t.stop) : s.withToken t k = .stop .bufReadPastLen := by
  rw [State.withToken, if_pos hp, State.withBytes_of_lt h]

/-- Settles O60: each operation by the lemma that says where it stops. -/
theorem undefinedUsesStop : Obligations.UndefinedUsesStop := by
  intro s k raw e
  refine ⟨fun h => ?_, fun h => ?_, fun h => ?_, fun h => ?_, fun h => ⟨?_, ?_⟩, fun hp h => ⟨?_, ?_, ?_⟩⟩
  all_goals refine Flow.outcome_eq_fault.2 ?_
  · exact doAggDlv_stops h
  · exact doSclScale_stops s h
  · exact doLStrip_stops h
  · exact State.withBytes_of_lt h
  · exact doVLen_stops h
  · exact doVFcs_stops h
  · exact State.withToken_stops hp h
  · exact State.withToken_stops hp h
  · exact State.withToken_stops hp h

/-! ## A byte for a full buffer (R76, R329) -/

theorem bufAppend_full {s : State} (b : Byte) (h : s.params.bufCap ≤ s.len) :
    bufAppend b s = .ended (s.afterAbort .frameTooLarge) := by
  rw [bufAppend, if_pos ((bufferFull_iff s).2 h), raise_eq]

/-- The abort sequence resets the aggregate, so the checksum feed before a refused append leaves no mark (R291, R329). -/
theorem bufAppend_feedByte_full {s : State} (b : Byte) (h : s.params.bufCap ≤ s.len) :
    bufAppend b (feedByte b s) = .ended (s.afterAbort .frameTooLarge) := by
  obtain ⟨c, hc⟩ := feedByte_eq_setCrc b s
  have hfull : (s.setCrc c).params.bufCap ≤ (s.setCrc c).len := h
  rw [hc, bufAppend_full b hfull]
  rfl

/-- Settles O43: the overflow operations raise on every byte, and the appending ones do when `bufAppend` refuses. -/
theorem overflowAndBadCharacter : Obligations.OverflowAndBadCharacter := by
  intro s b
  refine ⟨rfl, rfl, rfl, fun h => ⟨?_, ?_, ?_, ?_⟩⟩
  all_goals refine Flow.outcome_eq_next.2 (.inr ?_)
  · exact bufAppend_feedByte_full b h
  · rw [doAEol, bufAppend_feedByte_full lf h, Flow.ended_andThen, Flow.ended_andThen]
  · exact bufAppend_full b h
  · rw [doHClose, bufAppend_full flagByte h, Flow.ended_andThen]

/-! ## The frame check (R73, R149, R231) -/

/-- The checksum of the bytes a frame's check covers, the first `len - 4` after the opening flag (R231). -/
def State.frameSum (s : State) : Half := crcx ((List.range (s.len - 4)).map fun i => s.buf.read (i + 1))

/-- `CRCX.CLR`, the updates over `buf[1 .. len-4]` and `CRCX.FIN` leave the checksum in `FCS` (R146 to R149). -/
theorem crcxRun_frame (s : State) :
    doCrcxFin (crcxRun (s.bytes 1 (s.len - 3)) (doCrcxClr s)) = s.setFcs s.frameSum := by
  have hbytes : s.bytes 1 (s.len - 3) = (List.range (s.len - 4)).map fun i => s.buf.read (i + 1) := by
    simp only [State.bytes, Nat.sub_sub, Nat.add_comm 1]
  rw [crcxRun_eq, hbytes]
  rfl

/-- Everything `V.FCS` can do on a buffer of three bytes or more (R231). The two stored bytes, in the order of
`fcsLowFirst`, are `storedCheck` by definition, and writing `FCS` leaves them (R73). -/
theorem doVFcs_eq {s : State} (h : 3 ≤ s.len) :
    doVFcs s = if s.frameSum = storedCheck s then .go (s.setFcs s.frameSum)
      else .ended ((s.setFcs s.frameSum).afterAbort .crcMismatch) := by
  rw [doVFcs, if_neg (Nat.not_lt.2 h), crcxRun_frame]
  exact ite_not ..

/-- Settles O46: the two ends of `doVFcs_eq`, a frame of 17 bytes being long enough for it. -/
theorem frameCheck : Obligations.FrameCheck := by
  intro s hlen
  have hfcs := doVFcs_eq (s := s) (by omega)
  refine ⟨fun heq => Flow.outcome_eq_next.2 (.inl ?_), fun hne => Flow.outcome_eq_next.2 (.inr ?_)⟩
  · exact hfcs.trans (if_pos heq)
  · exact hfcs.trans (if_neg hne)

end Sys2Proof.Machine
end

section
/-! PROOFS for the family of 30_encoding.md, the decoders. What each selection selects, how decode and encode agree at
every position (R100 to R109, R177, R253), and the words written out from the tables. -/

namespace Sys2Proof

/-! ## The bytes of an operand (R71, R105) -/

/-- Appending a byte shifts what stands before it by eight bits. -/
theorem toNat_append_byte {n : Nat} (x : BitVec n) (b : Byte) : (x ++ b).toNat = x.toNat * 256 + b.toNat := by
  rw [BitVec.toNat_append, ← Nat.shiftLeft_add_eq_or_of_lt b.isLt, Nat.shiftLeft_eq]

theorem toNat_be16 (b0 b1 : Byte) : (be16 b0 b1).toNat = b0.toNat * 256 + b1.toNat := toNat_append_byte b0 b1

theorem toNat_be32 (b0 b1 b2 b3 : Byte) :
    (be32 b0 b1 b2 b3).toNat = ((b0.toNat * 256 + b1.toNat) * 256 + b2.toNat) * 256 + b3.toNat := by
  rw [← toNat_append_byte b0 b1, ← toNat_append_byte _ b2, ← toNat_append_byte _ b3]
  rfl

/-- Byte `n` of a word, counted from the least significant one. -/
theorem toNat_extract_byte {w : Nat} (v : BitVec w) (start : Nat) :
    (v.extractLsb' start 8).toNat = v.toNat / 2 ^ start % 256 := by
  rw [BitVec.extractLsb'_toNat, Nat.shiftRight_eq_div_pow]

theorem be16_extract (v : Half) : be16 (v.extractLsb' 8 8) (v.extractLsb' 0 8) = v := by
  refine BitVec.eq_of_toNat_eq ?_
  have := v.isLt
  rw [toNat_be16, toNat_extract_byte, toNat_extract_byte]
  omega

theorem be32_extract (v : Word32) :
    be32 (v.extractLsb' 24 8) (v.extractLsb' 16 8) (v.extractLsb' 8 8) (v.extractLsb' 0 8) = v := by
  refine BitVec.eq_of_toNat_eq ?_
  have := v.isLt
  rw [toNat_be32, toNat_extract_byte, toNat_extract_byte, toNat_extract_byte, toNat_extract_byte]
  omega

theorem extract_be16 (b0 b1 : Byte) :
    (be16 b0 b1).extractLsb' 8 8 = b0 ∧ (be16 b0 b1).extractLsb' 0 8 = b1 := by
  have h0 := b0.isLt
  have h1 := b1.isLt
  refine ⟨BitVec.eq_of_toNat_eq ?_, BitVec.eq_of_toNat_eq ?_⟩
  all_goals rw [toNat_extract_byte, toNat_be16]; omega

theorem extract_be32 (b0 b1 b2 b3 : Byte) :
    (be32 b0 b1 b2 b3).extractLsb' 24 8 = b0 ∧ (be32 b0 b1 b2 b3).extractLsb' 16 8 = b1 ∧
      (be32 b0 b1 b2 b3).extractLsb' 8 8 = b2 ∧ (be32 b0 b1 b2 b3).extractLsb' 0 8 = b3 := by
  have h0 := b0.isLt
  have h1 := b1.isLt
  have h2 := b2.isLt
  have h3 := b3.isLt
  refine ⟨BitVec.eq_of_toNat_eq ?_, BitVec.eq_of_toNat_eq ?_, BitVec.eq_of_toNat_eq ?_, BitVec.eq_of_toNat_eq ?_⟩
  all_goals rw [toNat_extract_byte, toNat_be32]; omega

theorem isDigit_iff {b : Byte} : isDigit b = true ↔ 0x30 ≤ b.toNat ∧ b.toNat ≤ 0x39 := by simp [isDigit]

/-- A digit's byte is 0x30 with the value in the low nibble (R105). -/
theorem toNat_digitByte (d : BitVec 4) : ((3 : BitVec 4) ++ d : Byte).toNat = 0x30 + d.toNat := by
  rw [BitVec.toNat_append, ← Nat.shiftLeft_add_eq_or_of_lt d.isLt]
  rfl

theorem isDigit_digitByte {d : BitVec 4} (h : isDigitValue d = true) :
    isDigit ((3 : BitVec 4) ++ d : Byte) = true := by
  have hd : d.toNat < 10 := by simpa [isDigitValue] using h
  rw [isDigit_iff, toNat_digitByte]
  omega

theorem truncate_digitByte (d : BitVec 4) : ((3 : BitVec 4) ++ d : Byte).truncate 4 = d :=
  BitVec.setWidth_append_eq_right

/-- The nibble the decoder takes from a digit is its value. -/
theorem truncate_of_isDigit {b : Byte} (h : isDigit b = true) : (b.truncate 4).toNat = digitValue b := by
  rw [isDigit_iff] at h
  rw [BitVec.toNat_setWidth, digitValue]
  omega

theorem isDigitValue_truncate {b : Byte} (h : isDigit b = true) : isDigitValue (b.truncate 4) = true := by
  have hv := truncate_of_isDigit h
  rw [isDigit_iff] at h
  simp only [isDigitValue, hv, digitValue, decide_eq_true_eq]
  omega

theorem digitByte_truncate {b : Byte} (h : isDigit b = true) : ((3 : BitVec 4) ++ b.truncate 4 : Byte) = b := by
  refine BitVec.eq_of_toNat_eq ?_
  have hv := truncate_of_isDigit h
  rw [isDigit_iff] at h
  rw [toNat_digitByte, hv, digitValue]
  omega

/-! ## What each selection selects (R103, R106, R177, R253) -/

/-- Everything format A selects (R103). -/
theorem asciiSel_cases (full : Bool) (b : Byte) :
    (full = true ∧ asciiSel full b = .ovf) ∨ (full = false ∧ b = lf ∧ asciiSel full b = .eol) ∨
    (full = false ∧ b ≠ lf ∧ asciiSel full b = .char) := by
  unfold asciiSel
  split_ifs with hf hb
  · exact .inl ⟨hf, rfl⟩
  · exact .inr (.inl ⟨Bool.not_eq_true _ ▸ hf, hb, rfl⟩)
  · exact .inr (.inr ⟨Bool.not_eq_true _ ▸ hf, hb, rfl⟩)

/-- Everything format F selects (R106). -/
theorem hdlcSel_cases (h : HState) (full : Bool) (b : Byte) :
    (h = .outsideFrame ∧ b = flagByte ∧ hdlcSel h full b = .openFrame) ∨
    (h = .outsideFrame ∧ b ≠ flagByte ∧ hdlcSel h full b = .skip) ∨
    (h = .readingFrame ∧ full = true ∧ hdlcSel h full b = .ovf) ∨
    (h = .readingFrame ∧ full = false ∧ b = flagByte ∧ hdlcSel h full b = .closeFrame) ∨
    (h = .readingFrame ∧ full = false ∧ b ≠ flagByte ∧ hdlcSel h full b = .data) ∨
    (h = .foundFrame ∧ hdlcSel h full b = .noByte) := by
  cases h with
  | outsideFrame =>
    by_cases hb : b = flagByte
    · exact .inl ⟨rfl, hb, if_pos hb⟩
    · exact .inr (.inl ⟨rfl, hb, if_neg hb⟩)
  | readingFrame =>
    cases full with
    | true => exact .inr (.inr (.inl ⟨rfl, rfl, rfl⟩))
    | false =>
      by_cases hb : b = flagByte
      · exact .inr (.inr (.inr (.inl ⟨rfl, rfl, hb, if_pos hb⟩)))
      · exact .inr (.inr (.inr (.inr (.inl ⟨rfl, rfl, hb, if_neg hb⟩))))
  | foundFrame => exact .inr (.inr (.inr (.inr (.inr ⟨rfl, rfl⟩))))

theorem decSel_digit {d : DState} {b : Byte} (hb : isDigit b = true) (hd : d = .start ∨ d = .sign ∨ d = .int) :
    decSel d b = .digit := by
  unfold decSel
  rw [if_pos hb]
  obtain rfl | rfl | rfl := hd
  all_goals rfl

theorem decSel_frac {d : DState} {b : Byte} (hb : isDigit b = true) (hd : d = .point ∨ d = .frac) :
    decSel d b = .frac := by
  unfold decSel
  rw [if_pos hb]
  obtain rfl | rfl := hd
  all_goals rfl

theorem decSel_of_not_digit {d : DState} {b : Byte} (hb : isDigit b = false) :
    decSel d b = if b = minus ∧ d = .start then .sign else if b = dot ∧ d = .int then .point else .bad := by
  unfold decSel
  rw [if_neg (ne_true_of_eq_false hb)]

/-- Everything the table of R177 selects, with the byte and the state that select it. -/
theorem decSel_cases (d : DState) (b : Byte) :
    (isDigit b = true ∧ (d = .start ∨ d = .sign ∨ d = .int) ∧ decSel d b = .digit) ∨
    (isDigit b = true ∧ (d = .point ∨ d = .frac) ∧ decSel d b = .frac) ∨
    (b = minus ∧ d = .start ∧ decSel d b = .sign) ∨
    (b = dot ∧ d = .int ∧ decSel d b = .point) ∨
    (isDigit b = false ∧ ¬(b = minus ∧ d = .start) ∧ ¬(b = dot ∧ d = .int) ∧ decSel d b = .bad) := by
  cases hb : isDigit b with
  | true =>
    have hd : (d = .start ∨ d = .sign ∨ d = .int) ∨ d = .point ∨ d = .frac := by cases d <;> decide
    obtain hd | hd := hd
    · exact .inl ⟨rfl, hd, decSel_digit hb hd⟩
    · exact .inr (.inl ⟨rfl, hd, decSel_frac hb hd⟩)
  | false =>
    rw [decSel_of_not_digit hb]
    split_ifs with h1 h2
    · exact .inr (.inr (.inl ⟨h1.1, h1.2, rfl⟩))
    · exact .inr (.inr (.inr (.inl ⟨h2.1, h2.2, rfl⟩)))
    · exact .inr (.inr (.inr (.inr ⟨rfl, h1, h2, rfl⟩)))

/-- The tag that selects an element operation; `UNK` has none of its own (R253). -/
def TagSel.tag : TagSel → Option Byte
  | .structN => some tagStruct
  | .scale => some tagScale
  | .unit => some tagUnit
  | .octs => some tagOcts
  | .u32 => some tagU32
  | .i16 => some tagI16
  | .u16 => some tagU16
  | .unk => none

theorem eq_of_tag_tagSel {t u : Byte} (h : (tagSel t).tag = some u) : t = u := by
  unfold tagSel at h
  split_ifs at h
  all_goals cases h
  all_goals assumption

/-- Every tag but the seven is `UNK` (R253, R261). -/
theorem tagSel_eq_unk {t : Byte} : tagSel t = .unk ↔ isKnownTag t = false := by
  simp only [isKnownTag, Bool.or_eq_false_iff, beq_eq_false_iff_ne]
  unfold tagSel
  split_ifs
  all_goals simp_all only [ne_eq, not_true, not_false_eq_true, false_and, and_false, and_self]

/-! ## The rows of the ROM (R109, R162) -/

/-- Each row's operation is encoded by the row's key, and the key is in no other row. -/
theorem romFixed_row : ∀ row ∈ romFixed,
    encode row.instr = some (keyBytes row.key) ∧ romFixedRow row.key = some row ∧ row.instr.wf = true ∧
      row.instr.appearsIn .romKey = true := by
  decide

/-- Only the rows stand at the ROM's key. -/
theorem exists_row_of_appearsIn {i : Instr} (h : i.appearsIn .romKey = true) : ∃ row ∈ romFixed, row.instr = i := by
  cases i with
  | romRowCumActImp | romRowCumActExp | romRowCumReactImp | romRowCumReactExp | romRowInstActImp
  | romRowInstActExp | romRowInstReactImp | romRowInstReactExp | romRowInstActImpL1 | romRowInstActImpL2
  | romRowInstActImpL3 | romRowInstActExpL1 | romRowInstActExpL2 | romRowInstActExpL3 | romRowInstReactImpL1
  | romRowInstReactImpL2 | romRowInstReactImpL3 | romRowInstReactExpL1 | romRowInstReactExpL2
  | romRowInstReactExpL3 | romRowCurrentL1 | romRowCurrentL2 | romRowCurrentL3 | romRowVoltageL1
  | romRowVoltageL2 | romRowVoltageL3 => decide
  | _ => cases h

theorem romFixedRow_eq_some {key : Key} {row : RomRow} (h : romFixedRow key = some row) :
    row ∈ romFixed ∧ row.key = key :=
  ⟨List.mem_of_find?_eq_some h, by simpa using List.find?_some h⟩

theorem decode_romKey {key : Key} {row : RomRow} (h : romFixedRow key = some row) (rest : List Byte) :
    decode .romKey (keyBytes key ++ rest) = .ok (row.instr, rest) := by
  obtain ⟨c, d, e⟩ := key
  simp only [keyBytes, List.cons_append, List.nil_append, decode, h]

/-! ## Decode of encode, by position -/

/-- The bytes of `i` at `ctx`, followed by any rest, are read as `i` with that rest left. -/
def Instr.ReadsBack (i : Instr) (ctx : Ctx) : Prop :=
  ∀ rest, ∃ bs, encode i = some bs ∧ decode ctx (bs ++ rest) = .ok (i, rest)

theorem readsBack_command {i : Instr} (h : i.appearsIn .command = true) : i.ReadsBack .command := by
  intro rest
  cases i with
  | nop reserved => cases reserved with
    | false => exact ⟨_, rfl, rfl⟩
    | true => exact ⟨_, rfl, rfl⟩
  | invoke => exact ⟨_, rfl, rfl⟩
  | abort => exact ⟨_, rfl, rfl⟩
  | _ => cases h

theorem readsBack_asciiByte {i : Instr} {full : Bool} (hwf : i.wf = true)
    (h : i.appearsIn (.asciiByte full) = true) : i.ReadsBack (.asciiByte full) := by
  intro rest
  cases i with
  | aChar b =>
    obtain rfl : full = false := by simpa [Instr.appearsIn] using h
    have hb : b ≠ lf := by simpa [Instr.wf] using hwf
    have hsel : asciiSel false b = .char := if_neg hb
    exact ⟨[b], rfl, by simp only [List.singleton_append, decode, hsel]⟩
  | aEol =>
    obtain rfl : full = false := by simpa [Instr.appearsIn] using h
    exact ⟨[lf], rfl, rfl⟩
  | aOvf b =>
    obtain rfl : full = true := by simpa [Instr.appearsIn] using h
    exact ⟨[b], rfl, rfl⟩
  | _ => cases h

theorem readsBack_hdlcByte {i : Instr} {hs : HState} {full : Bool} (hwf : i.wf = true)
    (h : i.appearsIn (.hdlcByte hs full) = true) : i.ReadsBack (.hdlcByte hs full) := by
  intro rest
  cases i with
  | hSkip b =>
    have hb : b ≠ flagByte := by simpa [Instr.wf] using hwf
    obtain rfl : hs = .outsideFrame := by simpa [Instr.appearsIn, ← and_or_left] using h
    have hsel : hdlcSel .outsideFrame full b = .skip := if_neg hb
    exact ⟨[b], rfl, by simp only [List.singleton_append, decode, hsel]⟩
  | hOpen =>
    obtain rfl : hs = .outsideFrame := by simpa [Instr.appearsIn, ← and_or_left] using h
    exact ⟨[flagByte], rfl, rfl⟩
  | hData b =>
    have hb : b ≠ flagByte := by simpa [Instr.wf] using hwf
    obtain ⟨rfl, rfl⟩ : hs = .readingFrame ∧ full = false := by simpa [Instr.appearsIn] using h
    have hsel : hdlcSel .readingFrame false b = .data := if_neg hb
    exact ⟨[b], rfl, by simp only [List.singleton_append, decode, hsel]⟩
  | hClose =>
    obtain ⟨rfl, rfl⟩ : hs = .readingFrame ∧ full = false := by simpa [Instr.appearsIn] using h
    exact ⟨[flagByte], rfl, rfl⟩
  | hOvf b =>
    obtain ⟨rfl, rfl⟩ : hs = .readingFrame ∧ full = true := by simpa [Instr.appearsIn] using h
    exact ⟨[b], rfl, rfl⟩
  | _ => cases h

theorem readsBack_tokenByte {i : Instr} {d : DState} (hwf : i.wf = true)
    (h : i.appearsIn (.tokenByte d) = true) : i.ReadsBack (.tokenByte d) := by
  intro rest
  cases i with
  | decSign =>
    obtain rfl : d = .start := by simpa [Instr.appearsIn] using h
    exact ⟨[minus], rfl, rfl⟩
  | decPoint =>
    obtain rfl : d = .int := by simpa [Instr.appearsIn] using h
    exact ⟨[dot], rfl, rfl⟩
  | decDigit x =>
    have hd : d = .start ∨ d = .sign ∨ d = .int := by simpa [Instr.appearsIn, or_assoc] using h
    have hsel := decSel_digit (isDigit_digitByte hwf) hd
    exact ⟨[(3 : BitVec 4) ++ x], rfl, by simp only [List.singleton_append, decode, hsel, truncate_digitByte]⟩
  | decFrac x =>
    have hd : d = .point ∨ d = .frac := by simpa [Instr.appearsIn] using h
    have hsel := decSel_frac (isDigit_digitByte hwf) hd
    exact ⟨[(3 : BitVec 4) ++ x], rfl, by simp only [List.singleton_append, decode, hsel, truncate_digitByte]⟩
  | decBad b =>
    have hb : isDigit b = false := (Bool.not_eq_true' _).mp hwf
    have hsel : decSel d b = .bad := by
      rw [decSel_of_not_digit hb, if_neg, if_neg]
      · rintro ⟨rfl, rfl⟩; cases h
      · rintro ⟨rfl, rfl⟩; cases h
    exact ⟨[b], rfl, by simp only [List.singleton_append, decode, hsel]⟩
  | _ => cases h

theorem readsBack_romKey {i : Instr} (h : i.appearsIn .romKey = true) : i.ReadsBack .romKey := by
  intro rest
  obtain ⟨row, hrow, rfl⟩ := exists_row_of_appearsIn h
  obtain ⟨henc, hfind, -⟩ := romFixed_row row hrow
  exact ⟨_, henc, decode_romKey hfind rest⟩

theorem readsBack_element {i : Instr} (hwf : i.wf = true) (h : i.appearsIn .element = true) :
    i.ReadsBack .element := by
  intro rest
  cases i with
  | structN cnt => exact ⟨_, rfl, rfl⟩
  | scale e => exact ⟨_, rfl, rfl⟩
  | unit u => exact ⟨_, rfl, rfl⟩
  | octs ls str =>
    have hl : str.length = ls.toNat := by simpa [Instr.wf] using hwf
    have htag : tagSel tagOcts = .octs := rfl
    have hle : ls.toNat ≤ (str ++ rest).length := by simp [hl]
    exact ⟨_, rfl, by simp only [List.cons_append, decode, decodeElement, htag, if_pos hle, List.take_left' hl,
      List.drop_left' hl]⟩
  | u32 v =>
    have hv := be32_extract v
    have htag : tagSel tagU32 = .u32 := rfl
    exact ⟨_, rfl, by simp only [List.cons_append, List.nil_append, decode, decodeElement, htag, hv]⟩
  | i16 v =>
    have hv := be16_extract v
    have htag : tagSel tagI16 = .i16 := rfl
    exact ⟨_, rfl, by simp only [List.cons_append, List.nil_append, decode, decodeElement, htag, hv]⟩
  | u16 v =>
    have hv := be16_extract v
    have htag : tagSel tagU16 = .u16 := rfl
    exact ⟨_, rfl, by simp only [List.cons_append, List.nil_append, decode, decodeElement, htag, hv]⟩
  | unk t =>
    have htag : tagSel t = .unk := tagSel_eq_unk.2 (by simpa [Instr.wf] using hwf)
    exact ⟨[t], rfl, by simp only [List.singleton_append, decode, decodeElement, htag]⟩
  | _ => cases h

theorem readsBack_line {i : Instr} (h : i.appearsIn .line = true) : i.ReadsBack .line := by
  intro rest
  cases i with
  | lCksum => exact ⟨_, rfl, rfl⟩
  | _ => cases h

theorem readsBack_dataId {i : Instr} {k : Fin 4} (h : i.appearsIn (.dataId k) = true) : i.ReadsBack (.dataId k) := by
  intro rest
  cases i with
  | idMatch j =>
    obtain rfl : k = j := by simpa [Instr.appearsIn] using h
    exact ⟨_, rfl, rfl⟩
  | _ => cases h

theorem readsBack_dateLength {i : Instr} (h : i.appearsIn .dateLength = true) : i.ReadsBack .dateLength := by
  intro rest
  cases i with
  | hDate dl => exact ⟨_, rfl, rfl⟩
  | _ => cases h

theorem readsBack_arrayTag {i : Instr} (h : i.appearsIn .arrayTag = true) : i.ReadsBack .arrayTag := by
  intro rest
  cases i with
  | array n => exact ⟨_, rfl, rfl⟩
  | _ => cases h

theorem readsBack_structTag {i : Instr} (h : i.appearsIn .structTag = true) : i.ReadsBack .structTag := by
  intro rest
  cases i with
  | struct cnt => exact ⟨_, rfl, rfl⟩
  | _ => cases h

/-- Settles O56: position by position, and at each one operation by operation. -/
theorem decodeOfEncode : Obligations.DecodeOfEncode := by
  intro i ctx rest hwf h
  cases ctx with
  | command => exact readsBack_command h rest
  | asciiByte full => exact readsBack_asciiByte hwf h rest
  | hdlcByte hs full => exact readsBack_hdlcByte hwf h rest
  | line => exact readsBack_line h rest
  | tokenByte d => exact readsBack_tokenByte hwf h rest
  | dataId k => exact readsBack_dataId h rest
  | romKey => exact readsBack_romKey h rest
  | dateLength => exact readsBack_dateLength h rest
  | arrayTag => exact readsBack_arrayTag h rest
  | structTag => exact readsBack_structTag h rest
  | element => exact readsBack_element hwf h rest

/-! ## Encode of decode, by position -/

/-- `i`, read at `ctx` with `rest` left of `bytes`, is well-formed, and its encoding, if it has one, is what was
read. -/
def Instr.ReadFrom (i : Instr) (ctx : Ctx) (bytes rest : List Byte) : Prop :=
  i.wf = true ∧ ∀ bs, encode i = some bs → i.appearsIn ctx = true ∧ bytes = bs ++ rest

theorem Instr.ReadFrom.of_encode {i : Instr} {ctx : Ctx} {bytes rest bs : List Byte} (hwf : i.wf = true)
    (henc : encode i = some bs) (h : i.appearsIn ctx = true) (hbytes : bytes = bs ++ rest) :
    i.ReadFrom ctx bytes rest := by
  refine ⟨hwf, fun cs hcs => ?_⟩
  obtain rfl : bs = cs := Option.some.inj (henc.symm.trans hcs)
  exact ⟨h, hbytes⟩

theorem Instr.ReadFrom.of_internal {i : Instr} {ctx : Ctx} {bytes rest : List Byte} (hwf : i.wf = true)
    (henc : encode i = none) : i.ReadFrom ctx bytes rest :=
  ⟨hwf, fun bs hbs => by rw [henc] at hbs; cases hbs⟩

theorem readFrom_command {bytes rest : List Byte} {i : Instr} (h : decode .command bytes = .ok (i, rest)) :
    i.ReadFrom .command bytes rest := by
  cases bytes with
  | nil => cases h
  | cons b r =>
    simp only [decode] at h
    split at h
    next hlt =>
      cases h
      have hb : b = 0 ∨ b = 1 ∨ b = 2 ∨ b = 3 := by bv_omega
      obtain rfl | rfl | rfl | rfl := hb
      all_goals exact .of_encode rfl rfl rfl rfl
    next => cases h

theorem readFrom_asciiByte {full : Bool} {bytes rest : List Byte} {i : Instr}
    (h : decode (.asciiByte full) bytes = .ok (i, rest)) : i.ReadFrom (.asciiByte full) bytes rest := by
  cases bytes with
  | nil => cases h
  | cons b r =>
    simp only [decode] at h
    obtain ⟨rfl, hsel⟩ | ⟨rfl, rfl, hsel⟩ | ⟨rfl, hb, hsel⟩ := asciiSel_cases full b
    all_goals rw [hsel] at h; cases h
    · exact .of_encode rfl rfl rfl rfl
    · exact .of_encode rfl rfl rfl rfl
    · exact .of_encode (bne_iff_ne.2 hb) rfl rfl rfl

theorem readFrom_hdlcByte {hs : HState} {full : Bool} {bytes rest : List Byte} {i : Instr}
    (h : decode (.hdlcByte hs full) bytes = .ok (i, rest)) : i.ReadFrom (.hdlcByte hs full) bytes rest := by
  have hout : (Instr.hOpen).appearsIn (.hdlcByte .outsideFrame full) = true := by cases full <;> rfl
  cases bytes with
  | nil => cases h
  | cons b r =>
    simp only [decode] at h
    obtain ⟨rfl, rfl, hsel⟩ | ⟨rfl, hb, hsel⟩ | ⟨rfl, rfl, hsel⟩ | ⟨rfl, rfl, rfl, hsel⟩ | ⟨rfl, rfl, hb, hsel⟩ |
      ⟨rfl, hsel⟩ := hdlcSel_cases hs full b
    all_goals rw [hsel] at h; cases h
    · exact .of_encode rfl rfl hout rfl
    · exact .of_encode (bne_iff_ne.2 hb) rfl hout rfl
    · exact .of_encode rfl rfl rfl rfl
    · exact .of_encode rfl rfl rfl rfl
    · exact .of_encode (bne_iff_ne.2 hb) rfl rfl rfl

theorem readFrom_line {bytes rest : List Byte} {i : Instr} (h : decode .line bytes = .ok (i, rest)) :
    i.ReadFrom .line bytes rest := by
  cases bytes with
  | nil => cases h
  | cons b r =>
    simp only [decode] at h
    split_ifs at h with hb
    all_goals cases h
    · exact .of_encode rfl rfl rfl (by rw [hb]; rfl)
    · exact .of_internal rfl rfl
    · exact .of_internal rfl rfl

theorem readFrom_tokenByte {d : DState} {bytes rest : List Byte} {i : Instr}
    (h : decode (.tokenByte d) bytes = .ok (i, rest)) : i.ReadFrom (.tokenByte d) bytes rest := by
  cases bytes with
  | nil =>
    cases h
    exact .of_internal rfl rfl
  | cons b r =>
    simp only [decode] at h
    obtain ⟨hb, hd, hsel⟩ | ⟨hb, hd, hsel⟩ | ⟨rfl, rfl, hsel⟩ | ⟨rfl, rfl, hsel⟩ | ⟨hb, hstart, hint, hsel⟩ :=
      decSel_cases d b
    all_goals rw [hsel] at h; cases h
    · refine .of_encode (isDigitValue_truncate hb) rfl ?_ (by rw [digitByte_truncate hb]; rfl)
      obtain rfl | rfl | rfl := hd
      all_goals rfl
    · refine .of_encode (isDigitValue_truncate hb) rfl ?_ (by rw [digitByte_truncate hb]; rfl)
      obtain rfl | rfl := hd
      all_goals rfl
    · exact .of_encode rfl rfl rfl rfl
    · exact .of_encode rfl rfl rfl rfl
    · refine .of_encode ((Bool.not_eq_true' _).mpr hb) rfl ?_ rfl
      cases d with
      | start => simpa [Instr.appearsIn] using hstart
      | int => simpa [Instr.appearsIn] using hint
      | _ => rfl

theorem readFrom_dataId {k : Fin 4} {bytes rest : List Byte} {i : Instr}
    (h : decode (.dataId k) bytes = .ok (i, rest)) : i.ReadFrom (.dataId k) bytes rest := by
  match bytes, h with
  | b0 :: b1 :: b2 :: r, h =>
    simp only [decode] at h
    split at h
    next hid =>
      cases h
      refine .of_encode rfl rfl (beq_self_eq_true _) ?_
      rw [← hid]
      rfl
    next => cases h

theorem readFrom_romKey {bytes rest : List Byte} {i : Instr} (h : decode .romKey bytes = .ok (i, rest)) :
    i.ReadFrom .romKey bytes rest := by
  match bytes, h with
  | c :: d :: e :: r, h =>
    simp only [decode] at h
    split at h
    next row hfind =>
      cases h
      obtain ⟨hrow, hkey⟩ := romFixedRow_eq_some hfind
      obtain ⟨henc, -, hwf, hctx⟩ := romFixed_row row hrow
      exact .of_encode hwf henc hctx (by rw [hkey]; rfl)
    next => cases h

theorem readFrom_dateLength {bytes rest : List Byte} {i : Instr} (h : decode .dateLength bytes = .ok (i, rest)) :
    i.ReadFrom .dateLength bytes rest := by
  cases bytes with
  | nil => cases h
  | cons dl r =>
    cases h
    exact .of_encode rfl rfl rfl rfl

theorem decode_arrayTag_eq_ok {bytes rest : List Byte} {i : Instr} (h : decode .arrayTag bytes = .ok (i, rest)) :
    ∃ n, bytes = tagArray :: n :: rest ∧ i = .array n := by
  match bytes, h with
  | [t], h =>
    simp only [decode] at h
    split at h
    · cases h
    · cases h
  | t :: n :: r, h =>
    simp only [decode] at h
    split at h
    next ht =>
      cases h
      exact ⟨n, by rw [ht], rfl⟩
    next => cases h

theorem decode_structTag_eq_ok {bytes rest : List Byte} {i : Instr} (h : decode .structTag bytes = .ok (i, rest)) :
    ∃ n, bytes = tagStruct :: n :: rest ∧ i = .struct n := by
  match bytes, h with
  | [t], h =>
    simp only [decode] at h
    split at h
    · cases h
    · cases h
  | t :: n :: r, h =>
    simp only [decode] at h
    split at h
    next ht =>
      cases h
      exact ⟨n, by rw [ht], rfl⟩
    next => cases h

theorem readFrom_arrayTag {bytes rest : List Byte} {i : Instr} (h : decode .arrayTag bytes = .ok (i, rest)) :
    i.ReadFrom .arrayTag bytes rest := by
  obtain ⟨n, rfl, rfl⟩ := decode_arrayTag_eq_ok h
  exact .of_encode rfl rfl rfl rfl

theorem readFrom_structTag {bytes rest : List Byte} {i : Instr} (h : decode .structTag bytes = .ok (i, rest)) :
    i.ReadFrom .structTag bytes rest := by
  obtain ⟨n, rfl, rfl⟩ := decode_structTag_eq_ok h
  exact .of_encode rfl rfl rfl rfl

/-- An element's tag is the one its operation is encoded with, and the payload is the operand's bytes (R108, R253). -/
theorem readFrom_element {bytes rest : List Byte} {i : Instr} (h : decode .element bytes = .ok (i, rest)) :
    i.ReadFrom .element bytes rest := by
  cases bytes with
  | nil => cases h
  | cons t bs =>
    simp only [decode, decodeElement] at h
    split at h
    case h_1 hsel | h_2 hsel | h_3 hsel =>
      cases h
      obtain rfl := eq_of_tag_tagSel (congrArg TagSel.tag hsel)
      exact .of_encode rfl rfl rfl rfl
    case h_4 ls r hsel =>
      split at h
      next hle =>
        cases h
        obtain rfl := eq_of_tag_tagSel (congrArg TagSel.tag hsel)
        refine .of_encode ?_ rfl rfl ?_
        · simpa [Instr.wf] using hle
        · rw [List.cons_append, List.cons_append, List.take_append_drop]
      next => cases h
    case h_5 b0 b1 b2 b3 r hsel =>
      cases h
      obtain rfl := eq_of_tag_tagSel (congrArg TagSel.tag hsel)
      obtain ⟨h0, h1, h2, h3⟩ := extract_be32 b0 b1 b2 b3
      exact .of_encode rfl rfl rfl (by rw [h0, h1, h2, h3]; rfl)
    case h_6 b0 b1 r hsel | h_7 b0 b1 r hsel =>
      cases h
      obtain rfl := eq_of_tag_tagSel (congrArg TagSel.tag hsel)
      obtain ⟨h0, h1⟩ := extract_be16 b0 b1
      exact .of_encode rfl rfl rfl (by rw [h0, h1]; rfl)
    case h_8 hsel =>
      cases h
      exact .of_encode ((Bool.not_eq_true' _).mpr (tagSel_eq_unk.1 hsel)) rfl rfl rfl
    case h_9 => cases h

/-- Settles O57: position by position. -/
theorem encodeOfDecode : Obligations.EncodeOfDecode := by
  intro ctx bytes i rest h
  cases ctx with
  | command => exact readFrom_command h
  | asciiByte full => exact readFrom_asciiByte h
  | hdlcByte hs full => exact readFrom_hdlcByte h
  | line => exact readFrom_line h
  | tokenByte d => exact readFrom_tokenByte h
  | dataId k => exact readFrom_dataId h
  | romKey => exact readFrom_romKey h
  | dateLength => exact readFrom_dateLength h
  | arrayTag => exact readFrom_arrayTag h
  | structTag => exact readFrom_structTag h
  | element => exact readFrom_element h

/-! ## Elements cut off by the end of the bytes (R251) -/

/-- The bytes an element operation reads after its tag, of a string the length byte alone (R108). -/
def TagSel.payload : TagSel → Nat
  | .structN => 1
  | .scale => 1
  | .unit => 1
  | .octs => 1
  | .u32 => 4
  | .i16 => 2
  | .u16 => 2
  | .unk => 0

theorem decodeElement_cut {t : Byte} {bs : List Byte} (h : bs.length < (tagSel t).payload) :
    decodeElement (t :: bs) = .error .truncated := by
  simp only [decodeElement]
  split
  case h_9 => rfl
  all_goals
    next hsel =>
    rw [hsel] at h
    simp only [TagSel.payload, List.length_cons] at h
    omega

theorem decodeElement_octs {t ls : Byte} {r : List Byte} (ht : tagSel t = .octs) :
    decodeElement (t :: ls :: r) = if ls.toNat ≤ r.length then .ok (.octs ls (r.take ls.toNat), r.drop ls.toNat)
      else .error .truncated := by
  simp only [decodeElement, ht]

/-! ## Words of the encoding tables -/

/-- An unknown tag takes its own byte only (R117, R261). -/
theorem decode_unknown_tag {t : Byte} (h : isKnownTag t = false) (rest : List Byte) :
    decode .element (t :: rest) = .ok (.unk t, rest) := by
  simp only [decode, decodeElement, tagSel_eq_unk.2 h]

/-- Settles O58: the words by evaluation, the unknown tags by `decode_unknown_tag`. -/
theorem wordsDecode : Obligations.WordsDecode := by
  refine ⟨rfl, rfl, rfl, rfl, rfl, rfl, rfl, rfl, rfl, fun t rest ht => ?_, by decide +kernel⟩
  refine decode_unknown_tag ?_ rest
  simpa [isKnownTag, and_assoc] using ht

/-- Settles O26: the cases of `decSel`, the nibble of a digit being its value. -/
theorem decimalSelection : Obligations.DecimalSelection := by
  intro b
  refine ⟨fun hdigit => ?_, fun hother d => ?_, fun d => rfl⟩
  · have hb : isDigit b = true := isDigit_iff.2 hdigit
    have hval : b.truncate 4 = BitVec.ofNat 4 (b.toNat - 0x30) := by
      refine BitVec.eq_of_toNat_eq ?_
      rw [truncate_of_isDigit hb, digitValue, BitVec.toNat_ofNat]
      omega
    refine ⟨fun d hd => ?_, fun d hd => ?_⟩
    · have hsel := decSel_digit hb (by simpa using hd)
      simp only [decode, hsel, hval]
    · have hsel := decSel_frac hb (by simpa using hd)
      simp only [decode, hsel, hval]
  · have hb : isDigit b = false := eq_false_of_ne_true (mt isDigit_iff.1 hother)
    simp only [decode, decSel_of_not_digit hb]
    split_ifs
    · rfl
    · rfl
    · rfl

/-- Settles O1: each command is written over the shared reset of the aggregate; the four codes are read by
evaluation. -/
theorem hostCommands : Obligations.HostCommands := by
  intro s
  exact ⟨fun _ => rfl, rfl, fun _ => rfl, rfl, rfl, rfl, rfl, rfl⟩

end Sys2Proof
end

section
/-! PROOFS for the family of 30_encoding.md, the machine's sequencing. The operation the machine runs at each position is
the one the decoder reads there (R103, R104, R106, R162, R177, R202, R234, R253), what an element in the frame leaves
(R254 to R261), and the checksum line (R196, R197). -/

namespace Sys2Proof.Machine

/-! ## Reads of the buffer -/

theorem State.bytes_of_ge {s : State} {a b : Nat} (h : b ≤ a) : s.bytes a b = [] := by
  rw [State.bytes, Nat.sub_eq_zero_of_le h]
  rfl

theorem State.bytes_cons {s : State} {a b : Nat} (h : a < b) :
    s.bytes a b = s.buf.read a :: s.bytes (a + 1) b := by
  have hlen : b - a = b - (a + 1) + 1 := by omega
  simp only [State.bytes, hlen, List.range_succ_eq_map, List.map_cons, List.map_map, Nat.add_zero]
  refine congrArg _ (List.map_congr_left fun i _ => ?_)
  simp only [Function.comp_apply, Nat.succ_eq_add_one]
  congr 1
  omega

theorem State.bytes_eq_cons {s : State} {a b : Nat} {x : Byte} {l : List Byte} (h : s.bytes a b = x :: l) :
    a < b ∧ x = s.buf.read a ∧ l = s.bytes (a + 1) b := by
  rcases Nat.lt_or_ge a b with hlt | hge
  · rw [State.bytes_cons hlt] at h
    cases h
    exact ⟨hlt, rfl, rfl⟩
  · rw [State.bytes_of_ge hge] at h
    cases h

theorem State.bytes_take {s : State} {a b n : Nat} (h : a + n ≤ b) : (s.bytes a b).take n = s.bytes a (a + n) := by
  rw [State.bytes, ← List.map_take, List.take_range, State.bytes]
  congr 2
  omega

theorem State.bytes_dropLast (s : State) (a b : Nat) : (s.bytes a b).dropLast = s.bytes a (b - 1) := by
  rw [List.dropLast_eq_take, State.bytes_length, State.bytes, ← List.map_take, List.take_range, State.bytes]
  congr 2
  omega

theorem State.bytes_getLast? {s : State} {b : Nat} (h : 0 < b) : (s.bytes 0 b).getLast? = some (s.buf.read (b - 1)) := by
  rw [List.getLast?_eq_getElem?, State.bytes_length]
  simp [State.bytes, h]

/-! ## Stream bytes and token bytes (R103, R106, R177) -/

theorem asciiByte_runs_decoded {s : State} {b : Byte} {i : Instr}
    (h : decode (.asciiByte (bufferFull s)) [b] = .ok (i, [])) : (asciiByte b s).outcome = exec i s := by
  simp only [decode] at h
  unfold asciiByte
  obtain ⟨-, hsel⟩ | ⟨-, -, hsel⟩ | ⟨-, -, hsel⟩ := asciiSel_cases (bufferFull s) b
  all_goals
    rw [hsel] at h ⊢
    cases h
    rfl

theorem hdlcByte_runs_decoded {s : State} {b : Byte} {i : Instr}
    (h : decode (.hdlcByte s.hstate (bufferFull s)) [b] = .ok (i, [])) : (hdlcByte b s).outcome = exec i s := by
  simp only [decode] at h
  unfold hdlcByte
  cases hsel : hdlcSel s.hstate (bufferFull s) b with
  | noByte => rw [hsel] at h; cases h
  | _ => rw [hsel] at h; cases h; rfl

theorem decStep_runs_decoded {s : State} {b : Byte} {i : Instr}
    (h : decode (.tokenByte s.dec.dstate) [b] = .ok (i, [])) : (decStep b s).outcome = exec i s := by
  simp only [decode] at h
  unfold decStep
  obtain ⟨hb, -, hsel⟩ | ⟨hb, -, hsel⟩ | ⟨-, -, hsel⟩ | ⟨-, -, hsel⟩ | ⟨-, -, -, hsel⟩ := decSel_cases s.dec.dstate b
  all_goals rw [hsel] at h ⊢; cases h
  · exact congrArg (fun x => (doDecDigit x s).outcome) (truncate_of_isDigit hb).symm
  · exact congrArg (fun x => (doDecFrac x s).outcome) (truncate_of_isDigit hb).symm
  · rfl
  · rfl
  · rfl

/-! ## Elements and required tags (R234, R235, R252, R253) -/

/-- The element at `cur` is read whole and `f` does what its operation does, or the frame cuts it off and `f` raises
`TruncatedStruct`. -/
def State.ElementRead (s : State) (f : Flow) : Prop :=
  (∃ i rest, decode .element (s.bytes s.tlv.cur s.len) = .ok (i, rest) ∧ f.outcome = exec i s) ∨
  (decode .element (s.bytes s.tlv.cur s.len) = .error .truncated ∧ f = .ended (s.afterAbort .truncatedStruct))

theorem elementStep_cut {s : State} (h1 : s.tlv.cur + 1 ≤ s.len)
    (h : s.len < s.tlv.cur + 1 + (tagSel (s.elemByte 0)).payload) :
    elementStep s = .ended (s.afterAbort .truncatedStruct) := by
  rw [elementStep, need_of_le h1]
  cases hsel : tagSel (s.elemByte 0) with
  | unk => rw [hsel] at h; exact absurd h (Nat.not_lt.2 h1)
  | _ => rw [hsel] at h; exact need_of_lt h

theorem elementStep_whole {s : State} (h : s.tlv.cur + 1 + (tagSel (s.elemByte 0)).payload ≤ s.len) :
    s.ElementRead (elementStep s) := by
  have h1 : s.tlv.cur + 1 ≤ s.len := by omega
  have htag : s.bytes s.tlv.cur s.len = s.elemByte 0 :: s.bytes (s.tlv.cur + 1) s.len := State.bytes_cons h1
  have hnext (n : Nat) (hn : s.tlv.cur + n < s.len) :
      s.bytes (s.tlv.cur + n) s.len = s.elemByte n :: s.bytes (s.tlv.cur + (n + 1)) s.len := State.bytes_cons hn
  rw [State.ElementRead, elementStep, need_of_le h1, htag, decode]
  cases hsel : tagSel (s.elemByte 0)
  all_goals simp only [hsel, TagSel.payload] at h
  case octs =>
    rw [hnext 1 (by omega), decodeElement_octs hsel, State.bytes_length]
    rcases Nat.lt_or_ge s.len (s.tlv.cur + (2 + (s.elemByte 1).toNat)) with hcut | hle
    · refine .inr ⟨if_neg (by omega), ?_⟩
      rw [doOcts, need_of_le (by omega), need_of_lt hcut]
    · refine .inl ⟨_, _, if_pos (by omega), ?_⟩
      rw [State.bytes_take (by omega)]
      rfl
  case u32 =>
    rw [hnext 1 (by omega), hnext 2 (by omega), hnext 3 (by omega), hnext 4 (by omega)]
    simp only [decodeElement, hsel]
    exact .inl ⟨_, _, rfl, rfl⟩
  case i16 | u16 =>
    rw [hnext 1 (by omega), hnext 2 (by omega)]
    simp only [decodeElement, hsel]
    exact .inl ⟨_, _, rfl, rfl⟩
  case unk =>
    simp only [decodeElement, hsel]
    exact .inl ⟨_, _, rfl, rfl⟩
  all_goals
    rw [hnext 1 (by omega)]
    simp only [decodeElement, hsel]
    exact .inl ⟨_, _, rfl, rfl⟩

/-- Everything `elementStep` can do, beside what the decoder reads at `cur` (R251, R253). -/
theorem elementStep_read (s : State) : s.ElementRead (elementStep s) := by
  rcases Nat.lt_or_ge s.tlv.cur s.len with h1 | h0
  · rcases Nat.lt_or_ge s.len (s.tlv.cur + 1 + (tagSel (s.elemByte 0)).payload) with hcut | hle
    · refine .inr ⟨?_, elementStep_cut h1 hcut⟩
      rw [State.bytes_cons h1]
      refine decodeElement_cut ?_
      rw [State.bytes_length]
      exact Nat.sub_lt_left_of_lt_add h1 hcut
    · exact elementStep_whole hle
  · refine .inr ⟨?_, need_of_lt (Nat.lt_succ_of_le h0)⟩
    rw [State.bytes_of_ge h0]
    rfl

/-- The byte after the one at `cur` is what an operation there takes as its operand. -/
theorem State.elemByte_one {s : State} {t n : Byte} {r : List Byte} (h : s.bytes s.tlv.cur s.len = t :: n :: r) :
    s.elemByte 1 = n := by
  obtain ⟨-, -, hr⟩ := State.bytes_eq_cons h
  obtain ⟨-, hn, -⟩ := State.bytes_eq_cons hr.symm
  exact hn.symm

theorem doStruct_runs_decoded {s : State} {i : Instr} {rest : List Byte}
    (h : decode .structTag (s.bytes s.tlv.cur s.len) = .ok (i, rest)) :
    (doStruct (s.elemByte 1) s).outcome = exec i s := by
  obtain ⟨n, hbytes, rfl⟩ := decode_structTag_eq_ok h
  rw [State.elemByte_one hbytes]
  rfl

theorem doArray_runs_decoded {s : State} {i : Instr} {rest : List Byte}
    (h : decode .arrayTag (s.bytes s.tlv.cur s.len) = .ok (i, rest)) :
    (doArray (s.elemByte 1) s).outcome = exec i s := by
  obtain ⟨n, hbytes, rfl⟩ := decode_arrayTag_eq_ok h
  rw [State.elemByte_one hbytes]
  rfl

theorem doHDate_runs_decoded {s : State} {i : Instr} {rest : List Byte}
    (h : decode .dateLength (s.bytes s.tlv.cur s.len) = .ok (i, rest)) :
    (doHDate (s.elemByte 0) s).outcome = exec i s := by
  match hb : s.bytes s.tlv.cur s.len, h with
  | dl :: r, h =>
    cases h
    obtain ⟨-, rfl, -⟩ := State.bytes_eq_cons hb
    rfl

/-! ## A completed line (R104, R199) -/

/-- What `L.STRIP` leaves below `n` is the stripped form of the buffered line. -/
theorem doLStrip_strips {s : State} (h : 0 < s.len) :
    ∃ n, doLStrip s = .go (s.setAlt { s.alt with n := n }) ∧ stripLine (s.bytes 0 s.len) = s.bytes 0 n := by
  rw [doLStrip, if_neg (by omega), stripLine, State.bytes_dropLast]
  refine ⟨_, rfl, ?_⟩
  rcases Nat.eq_zero_or_pos (s.len - 1) with h0 | hpos
  · simp [h0, State.bytes_of_ge]
  · rw [State.bytes_getLast? hpos, State.bytes_dropLast]
    simp only [hpos, true_and, Option.some.injEq, State.byteAt]
    split
    · rfl
    · rfl

theorem lineDispatch_runs_decoded {s : State} {i : Instr} {rest : List Byte}
    (h : decode .line (s.bytes 0 s.len) = .ok (i, rest)) :
    (i = .lCksum ∧ (lineDispatch s).outcome = exec i s) ∨
    ((i = .lData ∨ i = .lOther) ∧ ∃ v, exec .lStrip s = .next v ∧ (lineDispatch s).outcome = exec i v) := by
  have hlen : 0 < s.len := by
    rcases Nat.eq_zero_or_pos s.len with h0 | hpos
    · rw [State.bytes_of_ge h0.le] at h
      cases h
    · exact hpos
  obtain ⟨n, hstrip, hline⟩ := doLStrip_strips hlen
  have hb := State.bytes_cons (s := s) hlen
  rw [hb] at h
  simp only [decode] at h
  rw [← hb, hline] at h
  by_cases hbang : s.buf.read 0 = bang
  · rw [if_pos hbang] at h
    cases h
    exact .inl ⟨rfl, congrArg Flow.outcome (if_pos hbang)⟩
  · have hother : s.byteAt 0 ≠ bang := hbang
    rw [if_neg hbang] at h
    rw [lineDispatch, if_neg hother, hstrip, Flow.go_andThen]
    cases hp : hasParen (s.bytes 0 n) with
    | true =>
      rw [hp] at h
      cases h
      exact .inr ⟨.inl rfl, _, Flow.outcome_eq_next.2 (.inl hstrip), congrArg Flow.outcome (if_pos hp)⟩
    | false =>
      rw [hp] at h
      cases h
      exact .inr ⟨.inr rfl, _, Flow.outcome_eq_next.2 (.inl hstrip),
        congrArg Flow.outcome (if_neg (ne_true_of_eq_false hp))⟩

/-! ## The identifier and the ROM (R162, R202) -/

theorem dataIdMatches_iff {p t : List Byte} : dataIdMatches p t = true ↔ p <+: t := List.isPrefixOf_iff_prefix

/-- The decoder reads the identifier exactly where `ID.MATCH` with the default identifier finds it. -/
theorem decode_dataId_cases (k : Fin 4) (text : List Byte) :
    (∃ rest, decode (.dataId k) text = .ok (.idMatch k, rest) ∧ dataIdMatches Params.default.dataId text = true) ∨
    (∃ e, decode (.dataId k) text = .error e ∧ dataIdMatches Params.default.dataId text = false) := by
  match text with
  | [] => exact .inr ⟨_, rfl, rfl⟩
  | [b0] => exact .inr ⟨_, rfl, by simp [dataIdMatches, Params.default, List.isPrefixOf]⟩
  | [b0, b1] => exact .inr ⟨_, rfl, by simp [dataIdMatches, Params.default, List.isPrefixOf]⟩
  | b0 :: b1 :: b2 :: r =>
    have hmatch : dataIdMatches Params.default.dataId (b0 :: b1 :: b2 :: r) = true ↔
        [b0, b1, b2] = Params.default.dataId := by
      rw [dataIdMatches_iff, List.prefix_iff_eq_take]
      exact eq_comm
    simp only [decode]
    split
    next h => exact .inl ⟨_, rfl, hmatch.2 h⟩
    next h => exact .inr ⟨_, rfl, Bool.not_eq_true _ ▸ mt hmatch.1 h⟩

theorem exec_idMatch_present {s : State} {k : Fin 4} (hp : (s.alt.tok.get k).present = true)
    (h : (s.alt.tok.get k).stop ≤ s.len) :
    exec (.idMatch k) s = .next { s with alt := { s.alt with
      idMatch := dataIdMatches s.params.dataId (s.bytes (s.alt.tok.get k).start (s.alt.tok.get k).stop) } } :=
  Flow.outcome_eq_next.2 (.inl (State.withToken_present hp h))

/-- A row's operation drives the row's slot out (R162). -/
theorem exec_row (s : State) : ∀ row ∈ romFixed, exec row.instr s = .next (romDrive row.slot s) := by
  intro row hrow
  fin_cases hrow
  all_goals rfl

theorem doRomLkp_of_row {s : State} {key : Key} {row : RomRow} (h : romFixedRow key = some row) :
    doRomLkp key s = romDrive row.slot s := by
  have hslot : romSlotOf s.params.romExtra key = some row.slot := by rw [romSlotOf, h]
  rw [doRomLkp, hslot]

theorem exec_romLkp_runs_decoded {s : State} {key : Key} {i : Instr} {rest : List Byte}
    (h : decode .romKey [key.c, key.d, key.e] = .ok (i, rest)) : exec (.romLkp key) s = exec i s := by
  simp only [decode] at h
  split at h
  next row hfind =>
    cases h
    obtain ⟨hrow, -⟩ := romFixedRow_eq_some hfind
    rw [exec_row s row hrow]
    exact congrArg _ (doRomLkp_of_row hfind)
  next => cases h

/-- Settles O55: the positions one by one. -/
theorem sequencingRunsDecoded : Obligations.SequencingRunsDecoded := by
  intro s
  refine ⟨fun b i h => asciiByte_runs_decoded h, fun b i h => hdlcByte_runs_decoded h,
    fun b i h => decStep_runs_decoded h, fun i rest h => ?_, fun e h => ?_, fun i rest h => doStruct_runs_decoded h,
    fun i rest h => doArray_runs_decoded h, fun i rest h => doHDate_runs_decoded h,
    fun i rest h => lineDispatch_runs_decoded h, fun i h => ?_, fun k hid hp hstop => ⟨fun i rest h => ?_, fun e h => ?_⟩,
    fun key i rest h => exec_romLkp_runs_decoded h⟩
  · obtain ⟨j, r, hdec, hrun⟩ | ⟨hdec, -⟩ := elementStep_read s
    · rw [hdec] at h
      cases h
      exact hrun
    · rw [hdec] at h
      cases h
  · obtain ⟨j, r, hdec, -⟩ | ⟨-, hrun⟩ := elementStep_read s
    · rw [hdec] at h
      cases h
    · exact Flow.outcome_eq_next.2 (.inr hrun)
  · cases h
    rfl
  · obtain ⟨r, hdec, hmatch⟩ | ⟨e, hdec, -⟩ := decode_dataId_cases k
      (s.bytes (s.alt.tok.get k).start (s.alt.tok.get k).stop)
    · rw [hdec] at h
      cases h
      rw [exec_idMatch_present hp hstop, hid, hmatch]
    · rw [hdec] at h
      cases h
  · obtain ⟨r, hdec, -⟩ | ⟨e, hdec, hmatch⟩ := decode_dataId_cases k
      (s.bytes (s.alt.tok.get k).start (s.alt.tok.get k).stop)
    · rw [hdec] at h
      cases h
    · rw [exec_idMatch_present hp hstop, hid, hmatch]

/-! ## Elements that lie in the frame (R254 to R261) -/

theorem zext32_eq (v : Half) : zext32 v = BitVec.ofNat 32 v.toNat := (BitVec.ofNat_toNat 32 v).symm

theorem implicitApplies_iff {p : Params} {explicit : Bool} {u : Byte} :
    implicitApplies p explicit u = true ↔ explicit = false ∧ u ≠ p.unitAmpere ∧ u ≠ p.unitVolt := by
  simp [implicitApplies, and_assoc]

/-- Settles O51: the overrun check passes, and the rest is the operation's write to the walker's registers. -/
theorem elementResults : Obligations.ElementResults := by
  intro s _
  refine ⟨fun cnt h => ?_, fun e h => ?_, fun u h => ?_, fun v h => ?_, fun v h => ?_, fun v h => ?_, fun _ => rfl⟩
  all_goals refine Flow.outcome_eq_next.2 (.inl ((need_of_le h).trans ?_))
  case refine_3 => simp only [implicitApplies_iff]; rfl
  case refine_6 => simp only [zext32_eq]; rfl
  all_goals rfl

/-- Everything `OCTS` does with a string inside the frame (R257). -/
theorem doOcts_of_le {s : State} {ls : Byte} {str : List Byte} (h : s.tlv.cur + (2 + ls.toNat) ≤ s.len) :
    doOcts ls str s =
      if ls = codeLen then
        .go ((s.setTlv ({ s.tlv with codeFound := true }.consume (2 + ls.toNat))).setAlt
          { s.alt with key := ⟨str.getD 2 0, str.getD 3 0, str.getD 4 0⟩ })
      else .go (s.setTlv (s.tlv.consume (2 + ls.toNat))) := by
  rw [doOcts, need_of_le (by omega), need_of_le h]

/-- One of the two checks of `OCTS` catches a string that runs past the frame (R251, R257). -/
theorem doOcts_of_lt {s : State} {ls : Byte} {str : List Byte} (h : s.len < s.tlv.cur + (2 + ls.toNat)) :
    doOcts ls str s = .ended (s.afterAbort .truncatedStruct) := by
  rcases Nat.lt_or_ge s.len (s.tlv.cur + 2) with hcut | hle
  · exact need_of_lt hcut
  · exact (need_of_le hle).trans (need_of_lt h)

/-- Settles O52: `doOcts_of_le` at length six and at any other, `doOcts_of_lt` for the overrun. -/
theorem octetString : Obligations.OctetString := by
  intro s ls str _ hlen
  refine ⟨fun s0 s1 s2 s3 s4 s5 hstr h => ?_, fun hne h => ?_, fun h => ?_⟩
  all_goals refine Flow.outcome_eq_next.2 ?_
  · obtain rfl : ls = codeLen := BitVec.eq_of_toNat_eq (by rw [← hlen, hstr]; rfl)
    rw [doOcts_of_le h, if_pos rfl, hstr]
    exact .inl rfl
  · have hls : ls ≠ codeLen := fun e => hne (by rw [hlen, e]; rfl)
    rw [doOcts_of_le (by omega), if_neg hls, ← hlen, Tlv.consume, ← Nat.add_assoc]
    exact .inl rfl
  · exact .inr (doOcts_of_lt (by omega))

/-! ## The checksum line (R105, R196, R197) -/

/-- A hex digit shifts the accumulator by one nibble, modulo 2^16 (R113). -/
theorem shiftLeft_or_digit (n : Nat) (d : BitVec 4) :
    (BitVec.ofNat 16 n <<< 4) ||| d.zeroExtend 16 = BitVec.ofNat 16 (n * 16 + d.toNat) := by
  refine BitVec.eq_of_toNat_eq ?_
  have hd := d.isLt
  have hshift : (BitVec.ofNat 16 n <<< 4).toNat = (n % 4096) <<< 4 := by
    rw [BitVec.toNat_shiftLeft, BitVec.toNat_ofNat, Nat.shiftLeft_eq, Nat.shiftLeft_eq]
    omega
  have hdigit : (d.zeroExtend 16).toNat = d.toNat := by
    rw [BitVec.toNat_setWidth]
    omega
  rw [BitVec.toNat_or, hshift, hdigit, ← Nat.shiftLeft_add_eq_or_of_lt hd, Nat.shiftLeft_eq, BitVec.toNat_ofNat]
  omega

/-- The leading hex digits, read as a number modulo 2^16, up to the first other byte (R197). -/
theorem hexFold_digits {ds : List (BitVec 4)} {text rest : List Byte} (n : Nat)
    (htext : text.map hexValue = ds.map some) (hrest : ∀ b, rest.head? = some b → hexValue b = none) :
    hexFold (BitVec.ofNat 16 n) (text ++ rest) = BitVec.ofNat 16 (ds.foldl (fun a d => a * 16 + d.toNat) n) := by
  induction ds generalizing text n with
  | nil =>
    obtain rfl : text = [] := by simpa using htext
    cases rest with
    | nil => rfl
    | cons b rest => simp only [List.nil_append, hexFold, hrest b rfl, List.foldl_nil]
  | cons d ds ih =>
    match text, htext with
    | b :: text, htext =>
      simp only [List.map_cons, List.cons.injEq] at htext
      obtain ⟨hb, htext⟩ := htext
      simp only [List.cons_append, hexFold, hb, shiftLeft_or_digit, List.foldl_cons]
      exact ih _ htext

theorem toNat_hexDigit {n : Nat} (h : n < 16) : (some (BitVec.ofNat 4 n)).map BitVec.toNat = some n := by
  rw [Option.map_some, BitVec.toNat_ofNat, Nat.mod_eq_of_lt h]

theorem hexValue_classes (b : Byte) :
    (0x30 ≤ b.toNat ∧ b.toNat ≤ 0x39 → (hexValue b).map BitVec.toNat = some (b.toNat - 0x30)) ∧
    (0x41 ≤ b.toNat ∧ b.toNat ≤ 0x46 → (hexValue b).map BitVec.toNat = some (b.toNat - 0x37)) ∧
    (0x61 ≤ b.toNat ∧ b.toNat ≤ 0x66 → (hexValue b).map BitVec.toNat = some (b.toNat - 0x57)) ∧
    (¬ (0x30 ≤ b.toNat ∧ b.toNat ≤ 0x39) → ¬ (0x41 ≤ b.toNat ∧ b.toNat ≤ 0x46) →
      ¬ (0x61 ≤ b.toNat ∧ b.toNat ≤ 0x66) → hexValue b = none) := by
  unfold hexValue
  refine ⟨fun h => ?_, fun h => ?_, fun h => ?_, fun h1 h2 h3 => ?_⟩
  · rw [if_pos h, toNat_hexDigit (by omega)]
  · rw [if_neg (by omega), if_pos h, toNat_hexDigit (by omega)]
  · rw [if_neg (by omega), if_neg (by omega), if_pos h, toNat_hexDigit (by omega)]
  · rw [if_neg h1, if_neg h2, if_neg h3]

/-- `L.CKSUM` by the outcome of the comparison (R196). -/
theorem doLCksum_eq_ite (s : State) : doLCksum s =
    if s.agg.crc = (doHexParse s).alt.hexAcc then
      { s with alt := (doHexParse s).alt, agg := { s.agg with complete := true, valid := true } }
    else
      { s with alt := (doHexParse s).alt, agg := { s.agg with complete := true, valid := false },
               trace := s.trace ++ [.report .crcMismatch] } := by
  have hcrc : (doHexParse s).agg.crc = s.agg.crc := rfl
  simp only [doLCksum, hcrc]
  by_cases h : s.agg.crc = (doHexParse s).alt.hexAcc
  · have hm : crcMatches s.agg.crc (doHexParse s).alt.hexAcc = true := beq_iff_eq.2 h
    rw [if_pos h, hm]
    rfl
  · have hm : crcMatches s.agg.crc (doHexParse s).alt.hexAcc = false := beq_eq_false_iff_ne.2 h
    rw [if_neg h, hm]
    rfl

/-- Settles O36: `hexFold_digits` for the number spelled, `doLCksum_eq_ite` for the comparison. -/
theorem checksumLine : Obligations.ChecksumLine := by
  refine ⟨hexValue_classes, fun s ds text rest hline htext hrest => ?_, fun s => ?_⟩
  · have hfold := hexFold_digits 0 htext hrest
    rw [← hline] at hfold
    rw [← hfold]
    rfl
  · exact ⟨(doHexParse s).alt.hexAcc, rfl,
      fun heq => congrArg Host.Outcome.next ((doLCksum_eq_ite s).trans (if_pos heq)),
      fun hne => congrArg Host.Outcome.next ((doLCksum_eq_ite s).trans (if_neg hne))⟩

end Sys2Proof.Machine
end

section
/-! PROOFS for the family of 30_encoding.md, the values of a data line. `round64` is the nearest binary64, ties to even
(R15), and `DEC.PARSE` of a decimal text is `round64` of the number it spells (R171 to R178). -/

namespace Sys2Proof.Machine

/-! ## Rounding to the nearest integer -/

/-- The multiples of `b` beside 0 and `b` are at least `b` away from both. -/
theorem mul_step_cases (w : Int) {b : Nat} :
    (w ≤ -1 ∧ w * b ≤ -b) ∨ (w = 0 ∧ w * b = 0) ∨ (w = 1 ∧ w * b = b) ∨ (2 ≤ w ∧ 2 * (b : Int) ≤ w * b) := by
  have hb : (0 : Int) ≤ b := Int.natCast_nonneg b
  obtain h | rfl | rfl | h : w ≤ -1 ∨ w = 0 ∨ w = 1 ∨ 2 ≤ w := by omega
  · exact .inl ⟨h, by nlinarith⟩
  · exact .inr (.inl ⟨rfl, zero_mul _⟩)
  · exact .inr (.inr (.inl ⟨rfl, one_mul _⟩))
  · exact .inr (.inr (.inr ⟨h, Int.mul_le_mul_of_nonneg_right h hb⟩))

/-- `divHalfEven a b` is at least as near to `a / b` as any integer; of two nearest it is the even one. -/
theorem divHalfEven_nearest_int (a : Nat) {b : Nat} (hb : 0 < b) (z : Int) :
    |(divHalfEven a b : Int) * b - a| ≤ |z * b - a| ∧
    (|z * b - a| = |(divHalfEven a b : Int) * b - a| → z ≠ divHalfEven a b → divHalfEven a b % 2 = 0) := by
  have ha : (a : Int) = (a / b : Nat) * b + (a % b : Nat) := by exact_mod_cast (Nat.div_add_mod' a b).symm
  have hlt : a % b < b := Nat.mod_lt a hb
  have hoff (y : Int) : y * b - a = (y - (a / b : Nat)) * b - (a % b : Nat) := by rw [ha]; ring
  have hz := mul_step_cases (z - (a / b : Nat)) (b := b)
  have hn := mul_step_cases ((divHalfEven a b : Int) - (a / b : Nat)) (b := b)
  rw [hoff, hoff, Int.abs_eq_natAbs, Int.abs_eq_natAbs]
  generalize (z - (a / b : Nat)) * (b : Int) = offZ at *
  generalize ((divHalfEven a b : Int) - (a / b : Nat)) * (b : Int) = offN at *
  unfold divHalfEven at hn ⊢
  split_ifs at hn ⊢
  all_goals omega

theorem divHalfEven_nearest (a : Nat) {b : Nat} (hb : 0 < b) (z : Int) :
    |(divHalfEven a b : ℚ) - a / b| ≤ |(z : ℚ) - a / b| ∧
    (|(z : ℚ) - a / b| = |(divHalfEven a b : ℚ) - a / b| → z ≠ divHalfEven a b → divHalfEven a b % 2 = 0) := by
  have hb' : (0 : ℚ) < b := Nat.cast_pos.2 hb
  have hscale (y : Int) : |(y : ℚ) - a / b| = ((|y * b - a| : Int) : ℚ) / b := by
    rw [← abs_of_pos hb', Int.cast_abs, ← abs_div, abs_of_pos hb']
    push_cast
    congr 1
    field_simp
  obtain ⟨hle, htie⟩ := divHalfEven_nearest_int a hb z
  have hn := hscale (divHalfEven a b)
  rw [Int.cast_natCast] at hn
  rw [hn, hscale z]
  refine ⟨div_le_div_of_nonneg_right (Int.cast_le.2 hle) hb'.le, fun h => htie ?_⟩
  exact_mod_cast (div_left_inj' hb'.ne').1 h

/-! ## The numbers binary64 has -/

/-- A number with a significand of at most 53 bits, whatever the exponent. -/
def Dyadic53 (x : ℚ) : Prop := ∃ m e : Int, |m| < 2 ^ 53 ∧ x = m * (2 : ℚ) ^ e

theorem Dyadic53.neg {x : ℚ} (h : Dyadic53 x) : Dyadic53 (-x) := by
  obtain ⟨m, e, hm, rfl⟩ := h
  exact ⟨-m, e, by rwa [abs_neg], by push_cast; ring⟩

/-- Every pattern stands for such a number. -/
theorem f64Rat_dyadic53 (v : F64) : Dyadic53 (f64Rat v) := by
  have hfrac : v.toNat % 2 ^ 52 < 2 ^ 52 := Nat.mod_lt _ (by norm_num)
  have hmag : Dyadic53 (if f64Exponent v = 0 then ((v.toNat % 2 ^ 52 : Nat) : ℚ) * (2 : ℚ) ^ (-1074 : ℤ)
      else ((2 ^ 52 + v.toNat % 2 ^ 52 : Nat) : ℚ) * (2 : ℚ) ^ ((f64Exponent v : ℤ) - 1075)) := by
    split
    · refine ⟨(v.toNat % 2 ^ 52 : Nat), _, ?_, rfl⟩
      rw [Nat.abs_cast]
      omega
    · refine ⟨(2 ^ 52 + v.toNat % 2 ^ 52 : Nat), _, ?_, rfl⟩
      rw [Nat.abs_cast]
      omega
  simp only [f64Rat]
  split
  · exact hmag.neg
  · exact hmag

/-- Against the unit `2^e` such a number is a multiple of it, or lies below the significands of 53 bits. -/
theorem Dyadic53.multiple_or_small {x : ℚ} (h : Dyadic53 x) (e : Int) :
    (∃ z : Int, x = z * (2 : ℚ) ^ e) ∨ |x| < 2 ^ 52 * (2 : ℚ) ^ e := by
  obtain ⟨m, f, hm, rfl⟩ := h
  rcases le_or_gt e f with hef | hfe
  · refine .inl ⟨m * 2 ^ (f - e).toNat, ?_⟩
    have hsum : f = ((f - e).toNat : Int) + e := by omega
    conv_lhs => rw [hsum, zpow_add₀ two_ne_zero, zpow_natCast]
    push_cast
    ring
  · refine .inr ?_
    have hpow : (2 : ℚ) ^ f ≤ (2 : ℚ) ^ (e - 1) := zpow_le_zpow_right₀ one_le_two (by omega)
    have hm' : |(m : ℚ)| < 2 ^ 53 := by exact_mod_cast hm
    have hpos : (0 : ℚ) < (2 : ℚ) ^ (e - 1) := zpow_pos two_pos _
    calc |(m : ℚ) * (2 : ℚ) ^ f| = |(m : ℚ)| * (2 : ℚ) ^ f := by rw [abs_mul, abs_of_pos (zpow_pos (two_pos : (0 : ℚ) < 2) f)]
      _ ≤ |(m : ℚ)| * (2 : ℚ) ^ (e - 1) := mul_le_mul_of_nonneg_left hpow (abs_nonneg _)
      _ < 2 ^ 53 * (2 : ℚ) ^ (e - 1) := mul_lt_mul_of_pos_right hm' hpos
      _ = 2 ^ 52 * (2 : ℚ) ^ e := by rw [zpow_sub_one₀ two_ne_zero]; ring

/-- The significand `divHalfEven a b` at the exponent `e` is nearest to `a / b * 2^e` among all numbers of 53 bits,
where `a / b` has its leading bit at 52 or above. -/
theorem significand_nearest {a b : Nat} (hb : 0 < b) (hlead : 2 ^ 52 * b ≤ a) (e : Int) {y : ℚ} (hy : Dyadic53 y) :
    |(divHalfEven a b : ℚ) * (2 : ℚ) ^ e - a / b * (2 : ℚ) ^ e| ≤ |y - a / b * (2 : ℚ) ^ e| ∧
    (|y - a / b * (2 : ℚ) ^ e| = |(divHalfEven a b : ℚ) * (2 : ℚ) ^ e - a / b * (2 : ℚ) ^ e| →
      y ≠ (divHalfEven a b : ℚ) * (2 : ℚ) ^ e → divHalfEven a b % 2 = 0) := by
  have hu : (0 : ℚ) < (2 : ℚ) ^ e := zpow_pos two_pos e
  have hscale (t : ℚ) : |t * (2 : ℚ) ^ e - a / b * (2 : ℚ) ^ e| = |t - a / b| * (2 : ℚ) ^ e := by
    rw [← sub_mul, abs_mul, abs_of_pos hu]
  rw [hscale]
  obtain ⟨z, rfl⟩ | hsmall := hy.multiple_or_small e
  · obtain ⟨hle, htie⟩ := divHalfEven_nearest a hb z
    rw [hscale]
    refine ⟨mul_le_mul_of_nonneg_right hle hu.le, fun h hne => htie (mul_right_cancel₀ hu.ne' h) fun hz => hne ?_⟩
    rw [hz, Int.cast_natCast]
  · have hx : (2 : ℚ) ^ 52 ≤ a / b := by
      rw [le_div_iff₀ (Nat.cast_pos.2 hb)]
      exact_mod_cast hlead
    obtain ⟨hle, -⟩ := divHalfEven_nearest a hb (2 ^ 52)
    have hbase : |((2 ^ 52 : Int) : ℚ) - a / b| = a / b - 2 ^ 52 := by
      rw [Int.cast_pow, Int.cast_ofNat, abs_sub_comm, abs_of_nonneg (sub_nonneg.2 hx)]
    have hlt : |(divHalfEven a b : ℚ) - a / b| * (2 : ℚ) ^ e < |y - a / b * (2 : ℚ) ^ e| := by
      have hneg : -|y - a / b * (2 : ℚ) ^ e| ≤ y - a / b * (2 : ℚ) ^ e := neg_abs_le _
      have hylt : y < 2 ^ 52 * (2 : ℚ) ^ e := (le_abs_self y).trans_lt hsmall
      have hmul : |(divHalfEven a b : ℚ) - a / b| * (2 : ℚ) ^ e ≤ (a / b - 2 ^ 52) * (2 : ℚ) ^ e :=
        mul_le_mul_of_nonneg_right (hbase ▸ hle) hu.le
      rw [sub_mul] at hmul
      linarith
    exact ⟨hlt.le, fun h => absurd h hlt.ne'⟩

/-! ## The pattern of a rounded magnitude (R15) -/

/-- In the range of R170 the pattern is a significand below an exponent field, and the significand is the rounded
quotient. -/
theorem roundMagnitude_eq {num den : Nat} (hn : 1 ≤ num) (hn' : num < 2 ^ 64) (hd : 1 ≤ den) (hd' : den < 2 ^ 64) :
    ∃ a b base : Nat, 0 < b ∧ 2 ^ 52 * b ≤ a ∧ divHalfEven a b ≤ 2 ^ 53 ∧
      roundMagnitude num den = base * 2 ^ 52 + divHalfEven a b ∧
      (num / den : ℚ) = a / b * (2 : ℚ) ^ ((base : Int) - 1074) := by
  obtain ⟨-, hfinite⟩ := roundMagnitude_normal hn hn' hd hd'
  obtain ⟨hqlo, hqhi⟩ := scaledQuotient_bounds hn hn' hd
  have hk : Nat.log2 den < 64 := (Nat.log2_lt (by omega)).2 hd'
  unfold roundMagnitude at hfinite ⊢
  rw [if_neg (by omega)] at hfinite ⊢
  generalize hkdef : 55 + Nat.log2 den = k at *
  generalize hq : num * 2 ^ k / den = q at *
  have hq0 : q ≠ 0 := by omega
  have htlo : 54 ≤ Nat.log2 q := (Nat.le_log2 hq0).2 hqlo
  have hthi : Nat.log2 q < 64 + k := (Nat.log2_lt hq0).2 hqhi
  have hnormal : k < Nat.log2 q + 1023 := by omega
  have hlead : 2 ^ Nat.log2 q * den ≤ num * 2 ^ k :=
    (Nat.le_div_iff_mul_le hd).1 (by rw [hq]; exact Nat.log2_self_le hq0)
  have htop : 2 ^ Nat.log2 q = 2 ^ 52 * 2 ^ (Nat.log2 q - 52) := by rw [← pow_add]; congr 1; omega
  obtain ⟨-, hsig⟩ := significand_bounds (a := num * 2 ^ k) (b := den) (d := Nat.log2 q - 52)
    (by rw [hq, show 52 + (Nat.log2 q - 52) = Nat.log2 q by omega]; exact Nat.log2_self_le hq0)
    (by rw [hq, show 53 + (Nat.log2 q - 52) = Nat.log2 q + 1 by omega]; exact Nat.lt_log2_self)
  simp only [hq, hnormal, if_true] at hfinite ⊢
  refine ⟨num * 2 ^ k, den * 2 ^ (Nat.log2 q - 52), Nat.log2 q + 1022 - k, Nat.mul_pos hd (Nat.two_pow_pos _), ?_, hsig,
    ?_, ?_⟩
  · calc 2 ^ 52 * (den * 2 ^ (Nat.log2 q - 52)) = 2 ^ Nat.log2 q * den := by rw [htop]; ring
      _ ≤ num * 2 ^ k := hlead
  · split_ifs at hfinite ⊢
    · rfl
    · exact absurd hfinite (by norm_num)
  · have hexp : ((Nat.log2 q + 1022 - k : Nat) : Int) - 1074 = (Nat.log2 q - 52 : Nat) - (k : Int) := by omega
    have hden : (den : ℚ) ≠ 0 := Nat.cast_ne_zero.2 (by omega)
    rw [hexp, zpow_sub₀ two_ne_zero, zpow_natCast, zpow_natCast]
    push_cast
    field_simp

/-- The number of a positive pattern with a significand of 53 bits, `2^53` after a carry included. -/
theorem f64Rat_of_significand {base n : Nat} (hlo : 2 ^ 52 ≤ n) (hhi : n ≤ 2 ^ 53)
    (hfinite : base * 2 ^ 52 + n < 2047 * 2 ^ 52) :
    f64Rat (BitVec.ofNat 64 (base * 2 ^ 52 + n)) = n * (2 : ℚ) ^ ((base : Int) - 1074) := by
  have hnat : (BitVec.ofNat 64 (base * 2 ^ 52 + n)).toNat = base * 2 ^ 52 + n := by
    rw [BitVec.toNat_ofNat, Nat.mod_eq_of_lt (by omega)]
  have hsign : ¬ (base * 2 ^ 52 + n) / 2 ^ 63 = 1 := by omega
  simp only [f64Rat, f64Exponent, hnat, if_neg hsign]
  rcases Nat.lt_or_ge n (2 ^ 53) with hn | hn
  · have hexp : (base * 2 ^ 52 + n) / 2 ^ 52 % 2 ^ 11 = base + 1 := by omega
    have hfrac : 2 ^ 52 + (base * 2 ^ 52 + n) % 2 ^ 52 = n := by omega
    rw [hexp, hfrac, if_neg (by omega)]
    congr 2
    push_cast
    ring
  · obtain rfl : n = 2 ^ 53 := by omega
    have hexp : (base * 2 ^ 52 + 2 ^ 53) / 2 ^ 52 % 2 ^ 11 = base + 2 := by omega
    have hfrac : 2 ^ 52 + (base * 2 ^ 52 + 2 ^ 53) % 2 ^ 52 = 2 ^ 52 := by omega
    rw [hexp, hfrac, if_neg (by omega)]
    have hstep : ((base + 2 : Nat) : Int) - 1075 = (base : Int) - 1074 + 1 - 0 := by push_cast; ring
    rw [hstep, sub_zero, zpow_add_one₀ two_ne_zero]
    push_cast
    ring

/-- The sign bit negates. -/
theorem f64Rat_of_sign {m : Nat} (h : m < 2 ^ 63) :
    f64Rat (BitVec.ofNat 64 (2 ^ 63 + m)) = -f64Rat (BitVec.ofNat 64 m) := by
  have hpos : (BitVec.ofNat 64 m).toNat = m := by rw [BitVec.toNat_ofNat, Nat.mod_eq_of_lt (by omega)]
  have hneg : (BitVec.ofNat 64 (2 ^ 63 + m)).toNat = 2 ^ 63 + m := by
    rw [BitVec.toNat_ofNat, Nat.mod_eq_of_lt (by omega)]
  have hexp : (2 ^ 63 + m) / 2 ^ 52 % 2 ^ 11 = m / 2 ^ 52 % 2 ^ 11 := by omega
  have hfrac : (2 ^ 63 + m) % 2 ^ 52 = m % 2 ^ 52 := by omega
  have hsign : (2 ^ 63 + m) / 2 ^ 63 = 1 := by omega
  have hsign' : ¬ m / 2 ^ 63 = 1 := by omega
  simp only [f64Rat, f64Exponent, hpos, hneg, hexp, hfrac, if_pos hsign, if_neg hsign']

/-! ## `round64` rounds to nearest, ties to even (R15) -/

/-- `r` is nearest to `q` among the numbers of 53 bits, and where another is as near, `even` holds. -/
def Nearest (q r : ℚ) (even : Prop) : Prop :=
  ∀ y, Dyadic53 y → |r - q| ≤ |y - q| ∧ (|y - q| = |r - q| → y ≠ r → even)

/-- Rounding is symmetric in the sign. -/
theorem Nearest.neg {q r : ℚ} {even : Prop} (h : Nearest q r even) : Nearest (-q) (-r) even := by
  have hflip (t : ℚ) : |t - -q| = |-t - q| := by rw [← abs_neg, neg_sub]; congr 1; ring
  intro y hy
  obtain ⟨hle, htie⟩ := h (-y) hy.neg
  rw [hflip, hflip, neg_neg]
  exact ⟨hle, fun heq hne => htie heq fun e => hne (by rw [← e, neg_neg])⟩

theorem Nearest.roundsTo {q : ℚ} {v : F64} (h : Nearest q (f64Rat v) (v.toNat % 2 = 0)) (hfin : f64Exponent v ≤ 2046)
    (hzero : f64Rat v = 0 → v = 0) : RoundsTo q v := by
  refine ⟨hfin, fun w _ => ?_, fun w _ => ?_, hzero⟩
  · exact (h _ (f64Rat_dyadic53 w)).1
  · exact (h _ (f64Rat_dyadic53 w)).2

theorem roundsTo_zero : RoundsTo 0 F64.zero := by
  have hzero : f64Rat F64.zero = 0 := by simp [f64Rat, f64Exponent, F64.zero]
  have hexp : f64Exponent F64.zero = 0 := by simp [f64Exponent, F64.zero]
  refine Nearest.roundsTo (fun y _ => ?_) (by omega) fun _ => rfl
  rw [hzero, sub_zero, sub_zero, abs_zero]
  exact ⟨abs_nonneg y, fun h hne => absurd (abs_eq_zero.1 h) hne⟩

/-- The pattern of a positive magnitude is nearest to it, with or without the sign bit. -/
theorem round64_nearest (neg : Bool) {num den : Nat} (hn : 1 ≤ num) (hn' : num < 2 ^ 64) (hd : 1 ≤ den)
    (hd' : den < 2 ^ 64) :
    f64Rat (round64 neg num den) ≠ 0 ∧
    Nearest (if neg = true then -(num / den : ℚ) else num / den) (f64Rat (round64 neg num den))
      ((round64 neg num den).toNat % 2 = 0) := by
  obtain ⟨hnormal, hfinite⟩ := roundMagnitude_normal hn hn' hd hd'
  obtain ⟨a, b, base, hb, hlead, hsig, hm, hquot⟩ := roundMagnitude_eq hn hn' hd hd'
  have hsig' : 2 ^ 52 ≤ divHalfEven a b :=
    ((Nat.le_div_iff_mul_le hb).2 hlead).trans (divHalfEven_bounds a b).1
  have hval : f64Rat (BitVec.ofNat 64 (roundMagnitude num den)) =
      divHalfEven a b * (2 : ℚ) ^ ((base : Int) - 1074) := by
    rw [hm]
    exact f64Rat_of_significand hsig' hsig (hm ▸ hfinite)
  have hpos : (0 : ℚ) < divHalfEven a b * (2 : ℚ) ^ ((base : Int) - 1074) :=
    mul_pos (Nat.cast_pos.2 (by omega)) (zpow_pos two_pos _)
  have heven : divHalfEven a b % 2 = 0 → (round64 neg num den).toNat % 2 = 0 := by
    rw [round64, if_neg (by omega), BitVec.toNat_ofNat]
    cases neg with
    | true => simp only [if_true]; omega
    | false => simp only [Bool.false_eq_true, if_false]; omega
  have hnear : Nearest (num / den) (divHalfEven a b * (2 : ℚ) ^ ((base : Int) - 1074))
      ((round64 neg num den).toNat % 2 = 0) := by
    intro y hy
    rw [hquot]
    obtain ⟨hle, htie⟩ := significand_nearest hb hlead ((base : Int) - 1074) hy
    exact ⟨hle, fun h hne => heven (htie h hne)⟩
  have hround : f64Rat (round64 neg num den) =
      if neg = true then -(divHalfEven a b * (2 : ℚ) ^ ((base : Int) - 1074))
      else divHalfEven a b * (2 : ℚ) ^ ((base : Int) - 1074) := by
    rw [round64, if_neg (by omega)]
    cases neg with
    | true => simp only [if_true, f64Rat_of_sign (show roundMagnitude num den < 2 ^ 63 by omega), hval]
    | false => simp only [Bool.false_eq_true, if_false, hval]
  rw [hround]
  cases neg with
  | true => simp only [if_true]; exact ⟨neg_ne_zero.2 hpos.ne', hnear.neg⟩
  | false => simp only [Bool.false_eq_true, if_false] at hnear ⊢; exact ⟨hpos.ne', hnear⟩

theorem OrdinaryValue.finite {v : F64} (h : OrdinaryValue v) : f64Exponent v ≤ 2046 := by
  obtain rfl | ⟨-, h⟩ := h
  · simp [f64Exponent]
  · exact h

/-- `round64 neg num den` is `num / den` with its sign, correctly rounded, where both are 64-bit numbers (R15, R170). -/
theorem round64_roundsTo (neg : Bool) {num den : Nat} (hn : num < 2 ^ 64) (hd : 1 ≤ den) (hd' : den < 2 ^ 64) :
    RoundsTo (if neg = true then -(num / den : ℚ) else num / den) (round64 neg num den) := by
  rcases Nat.eq_zero_or_pos num with rfl | hpos
  · have hzero : round64 neg 0 den = F64.zero := by simp [round64, roundMagnitude]
    rw [hzero, Nat.cast_zero, zero_div, neg_zero, ite_self]
    exact roundsTo_zero
  · obtain ⟨hne, hnear⟩ := round64_nearest neg hpos hn hd hd'
    exact hnear.roundsTo (round64_ordinary neg hn hd hd').finite fun h => absurd h hne

/-! ## `DEC.PARSE` of a decimal text (R171 to R178) -/

theorem decRun_append (bs cs : List Byte) (s : State) : decRun (bs ++ cs) s = (decRun bs s).andThen (decRun cs) := by
  induction bs generalizing s with
  | nil => rfl
  | cons b bs ih =>
    simp only [List.cons_append, decRun, Flow.andThen_assoc]
    exact congrArg _ (funext ih)

theorem AllDigits.cons {b : Byte} {bs : List Byte} (h : AllDigits (b :: bs)) : isDigit b = true ∧ AllDigits bs :=
  ⟨isDigit_iff.2 (h b List.mem_cons_self), fun c hc => h c (List.mem_cons_of_mem b hc)⟩

/-- The number that `n` followed by the digits `bs` spells (R112). -/
def digitsFrom (n : Nat) (bs : List Byte) : Nat := bs.foldl (fun a b => a * 10 + digitValue b) n

theorem digitsFrom_zero (bs : List Byte) : digitsFrom 0 bs = digitsToNat bs := rfl

theorem le_digitsFrom (n : Nat) (bs : List Byte) : n ≤ digitsFrom n bs := by
  induction bs generalizing n with
  | nil => exact Nat.le_refl n
  | cons b bs ih =>
    calc n ≤ n * 10 + digitValue b := by omega
      _ ≤ digitsFrom n (b :: bs) := ih _

theorem digitsFrom_lt {bs : List Byte} (h : AllDigits bs) (n : Nat) :
    digitsFrom n bs < (n + 1) * 10 ^ bs.length := by
  induction bs generalizing n with
  | nil => simp [digitsFrom]
  | cons b bs ih =>
    obtain ⟨hb, hbs⟩ := h.cons
    have hdigit := digitValue_le_nine hb
    calc digitsFrom n (b :: bs) = digitsFrom (n * 10 + digitValue b) bs := rfl
      _ < (n * 10 + digitValue b + 1) * 10 ^ bs.length := ih hbs _
      _ ≤ ((n + 1) * 10) * 10 ^ bs.length := Nat.mul_le_mul_right _ (by omega)
      _ = (n + 1) * 10 ^ (b :: bs).length := by rw [List.length_cons, pow_succ]; ring

/-- A digit of the integer part under the cap (R173, R177). -/
theorem decStep_digit (s : State) {d : Dec} {b : Byte} (hb : isDigit b = true)
    (hd : d.dstate = .start ∨ d.dstate = .sign ∨ d.dstate = .int)
    (hcap : d.intPart * 10 + digitValue b ≤ s.params.decIntMax) :
    decStep b (s.setDec d) = .go (s.setDec { d with intPart := d.intPart * 10 + digitValue b, dstate := .int }) := by
  unfold decStep
  rw [State.setDec_dec, decSel_digit hb hd]
  exact if_neg (Nat.not_lt.2 hcap)

/-- A fractional digit, one of the first three (R175, R177). -/
theorem decStep_frac (s : State) {d : Dec} {b : Byte} (hb : isDigit b = true)
    (hd : d.dstate = .point ∨ d.dstate = .frac) (hnf : d.nf < 3) :
    decStep b (s.setDec d) = .go (s.setDec { d with
      frac := d.frac * 10 + digitValue b, nf := d.nf + 1, dstate := .frac }) := by
  unfold decStep
  rw [State.setDec_dec, decSel_frac hb hd]
  exact if_neg (Nat.not_le.2 hnf)

/-- The digits of an integer part that stays under the cap (R173). -/
theorem decRun_digits (s : State) {d : Dec} {ip : List Byte} (hdig : AllDigits ip) (hne : ip ≠ [])
    (hd : d.dstate = .start ∨ d.dstate = .sign ∨ d.dstate = .int)
    (hcap : digitsFrom d.intPart ip ≤ s.params.decIntMax) :
    decRun ip (s.setDec d) = .go (s.setDec { d with intPart := digitsFrom d.intPart ip, dstate := .int }) := by
  induction ip generalizing d with
  | nil => exact absurd rfl hne
  | cons b bs ih =>
    obtain ⟨hb, hbs⟩ := hdig.cons
    have hfirst : d.intPart * 10 + digitValue b ≤ s.params.decIntMax := (le_digitsFrom _ bs).trans hcap
    rw [decRun, decStep_digit s hb hd hfirst, Flow.go_andThen]
    cases bs with
    | nil => rfl
    | cons c cs => exact ih hbs (List.cons_ne_nil c cs) (.inr (.inr rfl)) hcap

/-- The digits of a fraction of at most three (R175). -/
theorem decRun_fracs (s : State) {d : Dec} {fp : List Byte} (hdig : AllDigits fp) (hne : fp ≠ [])
    (hd : d.dstate = .point ∨ d.dstate = .frac) (hnf : d.nf + fp.length ≤ 3) :
    decRun fp (s.setDec d) = .go (s.setDec { d with
      frac := digitsFrom d.frac fp, nf := d.nf + fp.length, dstate := .frac }) := by
  induction fp generalizing d with
  | nil => exact absurd rfl hne
  | cons b bs ih =>
    obtain ⟨hb, hbs⟩ := hdig.cons
    rw [List.length_cons] at hnf
    rw [decRun, decStep_frac s hb hd (by omega), Flow.go_andThen]
    cases bs with
    | nil => rfl
    | cons c cs =>
      rw [ih hbs (List.cons_ne_nil c cs) (.inr rfl) (by simp only; omega), List.length_cons (a := b), Nat.add_assoc,
        Nat.add_comm 1]
      rfl

/-- The registers after a whole decimal text was read. -/
def Dec.parsed (neg : Bool) (ip fp : List Byte) : Dec :=
  { dstate := .frac, neg := neg, intPart := digitsToNat ip, frac := digitsToNat fp, nf := fp.length }

/-- The text of the grammar takes the parser from `D_START` to `D_FRAC` (R171 to R175). -/
theorem decRun_decimalText (s : State) {neg : Bool} {ip fp : List Byte} (hip : AllDigits ip) (hipne : ip ≠ [])
    (hfp : AllDigits fp) (hfp1 : 1 ≤ fp.length) (hfp3 : fp.length ≤ 3) (hcap : digitsToNat ip ≤ s.params.decIntMax) :
    decRun (decimalText neg ip fp) (s.setDec Dec.init) = .go (s.setDec (Dec.parsed neg ip fp)) := by
  have hsign : ∃ d, decRun (if neg = true then [0x2D] else []) (s.setDec Dec.init) =
      .go (s.setDec { Dec.init with neg := neg, dstate := d }) ∧ (d = .start ∨ d = .sign ∨ d = .int) := by
    cases neg with
    | true => exact ⟨.sign, rfl, .inr (.inl rfl)⟩
    | false => exact ⟨.start, rfl, .inl rfl⟩
  obtain ⟨d, hsign, hd⟩ := hsign
  have hdigits := decRun_digits s (d := { Dec.init with neg := neg, dstate := d }) hip hipne hd hcap
  have hpoint : decRun [0x2E] (s.setDec { Dec.init with neg := neg, intPart := digitsToNat ip, dstate := .int }) =
      .go (s.setDec { Dec.init with neg := neg, intPart := digitsToNat ip, dstate := .point }) := rfl
  have hfracs := decRun_fracs s (d := { Dec.init with neg := neg, intPart := digitsToNat ip, dstate := .point }) hfp
    (List.ne_nil_of_length_pos hfp1) (.inl rfl) (by simpa [Dec.init] using hfp3)
  rw [decimalText, decRun_append, decRun_append, decRun_append, hsign, Flow.go_andThen, hdigits, Flow.go_andThen]
  refine (congrArg (Flow.andThen · (decRun fp)) hpoint).trans (hfracs.trans ?_)
  simp only [Dec.init, Dec.parsed, digitsFrom_zero, Nat.zero_add]

/-- `DEC.PARSE` of a text of the grammar leaves `decimalResult` of its parts in the latch (R171, R176). -/
theorem decParseText_decimal {s : State} {t : List Byte} {neg : Bool} {ip fp : List Byte}
    (h : DecimalParts s.params.decIntMax t neg ip fp) :
    decParseText t s = .go { s with
      dec := Dec.parsed neg ip fp
      latch := { s.latch with value := decimalResult neg (digitsToNat ip) (digitsToNat fp) fp.length } } := by
  obtain ⟨rfl, hip, hipne, hfp, hfp1, hfp3, hcap⟩ := h
  rw [decParseText, decRun_decimalText s hip hipne hfp hfp1 hfp3 hcap]
  rfl

/-- The value is the decimal's, correctly rounded (R176, R178). -/
theorem decimalResult_roundsTo (neg : Bool) {ip fp : List Byte} (hfp : AllDigits fp) (hlen : fp.length ≤ 3)
    (hip : digitsToNat ip ≤ 2147483647) :
    RoundsTo (decimalRat neg ip fp) (decimalResult neg (digitsToNat ip) (digitsToNat fp) fp.length) := by
  have hfrac : digitsToNat fp < 10 ^ fp.length := by simpa [digitsFrom_zero] using digitsFrom_lt hfp 0
  have hpow : 10 ^ fp.length ≤ 10 ^ 3 := Nat.pow_le_pow_right (by omega) hlen
  have hpow1 : 1 ≤ 10 ^ fp.length := Nat.one_le_pow _ _ (by omega)
  have hprod : digitsToNat ip * 10 ^ fp.length ≤ 2147483647 * 10 ^ 3 := Nat.mul_le_mul hip hpow
  have hround := round64_roundsTo neg (num := digitsToNat ip * 10 ^ fp.length + digitsToNat fp)
    (den := 10 ^ fp.length) (by omega) hpow1 (by omega)
  rw [Nat.cast_pow, Nat.cast_ofNat] at hround
  exact hround

end Sys2Proof.Machine
end

section
/-! PROOFS for the family of 30_encoding.md, a data line. The token registers hold the line's tokens (R201), a code of the
grammar of R203 is read as its key, and `L.DATA` goes through to the write of the value (R200, R292). -/

namespace Sys2Proof.Machine

/-! ## The text of a register code (R112, R203) -/

theorem dot_not_mem {g : List Byte} (h : AllDigits g) : dot ∉ g := fun hmem => absurd (h dot hmem) (by decide)

/-- A byte that is no dot belongs to the first field. -/
theorem splitDots_cons {b : Byte} {bs g : List Byte} {gs : List (List Byte)} (hb : b ≠ dot)
    (h : splitDots bs = g :: gs) : splitDots (b :: bs) = (b :: g) :: gs := by
  rw [splitDots, if_neg hb, h]

/-- The fields of a text whose first field ends at a dot. -/
theorem splitDots_append_dot {g : List Byte} (hg : dot ∉ g) (r : List Byte) :
    splitDots (g ++ dot :: r) = g :: splitDots r := by
  induction g with
  | nil => exact if_pos rfl
  | cons b g ih =>
    obtain ⟨hb, hg⟩ := List.ne_and_not_mem_of_not_mem_cons hg
    exact splitDots_cons (Ne.symm hb) (ih hg)

theorem splitDots_of_not_mem {g : List Byte} (hg : dot ∉ g) : splitDots g = [g] := by
  induction g with
  | nil => rfl
  | cons b g ih =>
    obtain ⟨hb, hg⟩ := List.ne_and_not_mem_of_not_mem_cons hg
    exact splitDots_cons (Ne.symm hb) (ih hg)

theorem segmentOf_eq_some {g : List Byte} (h : KeySegment g) :
    segmentOf g = some (BitVec.ofNat 8 (digitsToNat g)) := by
  obtain ⟨hdig, h1, h3, hval⟩ := h
  have hall : g.all isDigit = true := List.all_eq_true.2 fun b hb => isDigit_iff.2 (hdig b hb)
  exact if_pos ⟨h1, h3, hall, hval⟩

/-- A well-formed code is read as the key it spells (R203). -/
theorem keyOfToken_of_codeText {code : List Byte} {key : Key} (h : CodeText code key) :
    keyOfToken code = some key := by
  obtain ⟨g0, g1, g2, rfl, h0, h1, h2, rfl⟩ := h
  have hsplit : splitDots (g0 ++ [0x2E] ++ g1 ++ [0x2E] ++ g2) = [g0, g1, g2] := by
    rw [List.append_assoc, List.append_assoc, List.append_assoc, List.singleton_append, List.singleton_append,
      splitDots_append_dot (dot_not_mem h0.1), splitDots_append_dot (dot_not_mem h1.1),
      splitDots_of_not_mem (dot_not_mem h2.1)]
  simp only [keyOfToken, hsplit, segmentOf_eq_some h0, segmentOf_eq_some h1, segmentOf_eq_some h2]

/-! ## The tokens of a line (R201) -/

theorem isDelim_iff {b : Byte} : isDelim b = true ↔ b ∈ ([0x28, 0x29, 0x2A, 0x3A] : List Byte) := by
  simp [isDelim, or_assoc]

/-- The text of a token register (R31). -/
def State.tokenText (s : State) (t : Tok) : List Byte := s.bytes t.start t.stop

/-- The fields of a line between its delimiters, the empty ones among them (R201). -/
def fields (line : List Byte) : List (List Byte) := line.splitOnP isDelim

theorem lineTokens_eq (line : List Byte) : lineTokens line = (fields line).filter fun t => !t.isEmpty := by
  have hdelim : (fun b : Byte => decide (b ∈ ([0x28, 0x29, 0x2A, 0x3A] : List Byte))) = isDelim :=
    funext fun b => by rw [Bool.eq_iff_iff, decide_eq_true_iff, isDelim_iff]
  rw [lineTokens, hdelim, fields]

theorem fields_cons (b : Byte) (bs : List Byte) :
    fields (b :: bs) = if isDelim b = true then [] :: fields bs else (fields bs).modifyHead (List.cons b) :=
  List.splitOnP_cons_eq_if_modifyHead ..

theorem State.bytes_snoc {s : State} {a b : Nat} (h : a ≤ b) : s.bytes a (b + 1) = s.bytes a b ++ [s.buf.read b] := by
  have hlen : b + 1 - a = b - a + 1 := by omega
  rw [State.bytes, hlen, List.range_succ, List.map_append, List.map_singleton, Nat.add_sub_cancel' h]
  rfl

/-- The tokens of what is left of a line are its non-empty fields; where a token began at `st`, the bytes from `st`
on are the beginning of the first field. -/
theorem tokenRuns_text (s : State) {bs : List Byte} {i n : Nat} (hbs : bs = s.bytes i n) (hi : i ≤ n) :
    (tokenRuns bs i none).map s.tokenText = (fields bs).filter (fun t => !t.isEmpty) ∧
    ∀ st < i, (tokenRuns bs i (some st)).map s.tokenText =
      ((fields bs).modifyHead (s.bytes st i ++ ·)).filter fun t => !t.isEmpty := by
  have hne {st : Nat} (hst : st < i) : (s.bytes st i).isEmpty = false := by
    rw [State.bytes_cons hst]
    rfl
  induction bs generalizing i with
  | nil =>
    refine ⟨rfl, fun st hst => ?_⟩
    simp [tokenRuns, fields, State.tokenText, hne hst]
  | cons b bs ih =>
    obtain ⟨hlt, hb, hrest⟩ := State.bytes_eq_cons hbs.symm
    obtain ⟨hnone, hsome⟩ := ih hrest hlt fun hst => by rw [State.bytes_cons hst]; rfl
    unfold tokenRuns
    rw [fields_cons]
    cases hd : isDelim b with
    | true =>
      refine ⟨?_, fun st hst => ?_⟩
      · simpa using hnone
      · simp [State.tokenText, hne hst, hnone]
    | false =>
      simp only [Bool.false_eq_true, if_false]
      refine ⟨?_, fun st hst => ?_⟩
      · have hopen : (s.bytes i (i + 1) ++ ·) = List.cons b := by
          rw [State.bytes_snoc (Nat.le_refl i), State.bytes_of_ge (Nat.le_refl i), ← hb]
          rfl
        rw [← hopen]
        exact hsome i (Nat.lt_succ_self i)
      · have hopen : (s.bytes st (i + 1) ++ ·) = (s.bytes st i ++ ·) ∘ List.cons b := by
          rw [State.bytes_snoc hst.le, ← hb]
          exact funext fun t => List.append_assoc ..
        rw [List.modifyHead_modifyHead, ← hopen]
        exact hsome st (hst.trans (Nat.lt_succ_self i))

theorem present_of_mem_tokenRuns {bs : List Byte} {i : Nat} {o : Option Nat} {t : Tok} (h : t ∈ tokenRuns bs i o) :
    t.present = true := by
  induction bs generalizing i o with
  | nil =>
    cases o with
    | none => cases h
    | some st => rw [List.mem_singleton.1 h]
  | cons b bs ih =>
    cases o with
    | none =>
      unfold tokenRuns at h
      split at h
      · exact ih h
      · exact ih h
    | some st =>
      unfold tokenRuns at h
      split at h
      · obtain rfl | ht := List.mem_cons.1 h
        · rfl
        · exact ih ht
      · exact ih h

/-- Token register `k` is present and holds the text `t` (R31). -/
def State.HasToken (s : State) (k : Fin 4) (t : List Byte) : Prop :=
  (s.alt.tok.get k).present = true ∧ (s.alt.tok.get k).stop ≤ s.len ∧ s.tokenText (s.alt.tok.get k) = t

theorem splitTokens_get (old : Vector Tok 4) (line : List Byte) (k : Fin 4) :
    (splitTokens old line).get k = (tokenRuns line 0 none).getD k.val { old.get k with present := false } := by
  simp [splitTokens, Vector.get_eq_getElem]

/-- `T.SPLIT` puts the first four tokens of the line into the token registers, and writes nothing else (R201). -/
theorem doTSplit_tokens {s : State} (hn : s.alt.n ≤ s.len) :
    ∃ t : State, doTSplit s = .go t ∧ t = s.setAlt { s.alt with tok := t.alt.tok } ∧
      ∀ (k : Fin 4) (text : List Byte), (lineTokens (s.bytes 0 s.alt.n))[k.val]? = some text → t.HasToken k text := by
  refine ⟨_, State.withBytes_of_le hn, rfl, fun k text htext => ?_⟩
  obtain ⟨hruns, -⟩ := tokenRuns_text s (bs := s.bytes 0 s.alt.n) rfl (Nat.zero_le _)
  rw [lineTokens_eq, ← hruns, List.getElem?_map] at htext
  obtain ⟨r, hr, rfl⟩ := Option.map_eq_some_iff.1 htext
  have hmem := List.mem_of_getElem? hr
  have hstop := stop_le_of_mem_tokenRuns hmem
  rw [State.bytes_length] at hstop
  have hget : (splitTokens s.alt.tok (s.bytes 0 s.alt.n)).get k = r := by
    rw [splitTokens_get, List.getD_eq_getElem?_getD, hr, Option.getD_some]
  simp only [State.HasToken, State.setAlt_alt, hget]
  exact ⟨present_of_mem_tokenRuns hmem, by simpa using hstop.trans (by omega), rfl⟩

/-! ## The operations on a token (R171, R202, R203) -/

section
variable {s : State} {k : Fin 4} {text : List Byte}

theorem State.HasToken.withToken (h : s.HasToken k text) (f : List Byte → Flow) :
    s.withToken (s.alt.tok.get k) f = f text := by
  obtain ⟨hp, hstop, rfl⟩ := h
  exact State.withToken_present hp hstop

/-- A write that leaves the token registers and the buffer leaves the tokens. -/
theorem State.HasToken.of_same {t : State} (h : s.HasToken k text) (htok : t.alt.tok = s.alt.tok) (hlen : t.len = s.len)
    (hbuf : t.buf = s.buf) : t.HasToken k text := by
  obtain ⟨hp, hstop, htext⟩ := h
  refine ⟨by rw [htok]; exact hp, by rw [htok, hlen]; exact hstop, ?_⟩
  rw [htok, ← htext, State.tokenText, State.bytes, hbuf]
  rfl

theorem doIdMatch_of_token (h : s.HasToken k text) :
    doIdMatch k s = .go (s.setAlt { s.alt with idMatch := dataIdMatches s.params.dataId text }) := h.withToken _

theorem doKeyParse_of_code {key : Key} (h : s.HasToken k text) (hcode : CodeText text key) :
    doKeyParse k s = .go (s.setAlt { s.alt with key := key, keyValid := true }) := by
  rw [doKeyParse, h.withToken, keyOfToken_of_codeText hcode]

theorem doRomLkp_of_slot {key : Key} {slot : Fin 28} (h : romSlotOf s.params.romExtra key = some slot) :
    doRomLkp key s = romDrive slot s := by rw [doRomLkp, h]

theorem doDecParse_of_decimal {neg : Bool} {ip fp : List Byte} (h : s.HasToken k text)
    (hval : DecimalParts s.params.decIntMax text neg ip fp) :
    doDecParse k s = .go { s with
      dec := Dec.parsed neg ip fp
      latch := { s.latch with value := decimalResult neg (digitsToNat ip) (digitsToNat fp) fp.length } } :=
  (h.withToken _).trans (decParseText_decimal hval)

end

/-! ## `L.DATA` (R200) -/

section
variable {s : State} {ident code value : List Byte} {key : Key} {slot : Fin 28} {neg : Bool} {ip fp : List Byte}

/-- What `L.DATA` of a known register leaves: the value in its slot, and the tokenizer's, the decimal parser's and the
latch registers written (R200, R292). -/
def State.lineWritten (s : State) (alt : Alt) (slot : Fin 28) (neg : Bool) (ip fp : List Byte) : State :=
  let v := decimalResult neg (digitsToNat ip) (digitsToNat fp) fp.length
  ({ s with alt := alt, dec := Dec.parsed neg ip fp,
            latch := { romHit := true, romSlot := slot, value := v } } : State).setSlot slot v

theorem lDataKey_writes (hkey : s.alt.keyValid = true) (hslot : romSlotOf s.params.romExtra s.alt.key = some slot)
    (h2 : s.HasToken 2 value) (hval : DecimalParts s.params.decIntMax value neg ip fp) :
    lDataKey s = .go (s.lineWritten s.alt slot neg ip fp) := by
  have hhit : (romDrive slot s).latch.romHit = true := rfl
  have h2' : (romDrive slot s).HasToken 2 value := h2.of_same rfl rfl rfl
  rw [lDataKey, if_pos hkey, doRomLkp_of_slot hslot, lDataValue, if_pos hhit, doDecParse_of_decimal h2' hval]
  rfl

theorem lDataTokens_writes (hmatch : s.alt.idMatch = true) (h1 : s.HasToken 1 code) (hcode : CodeText code key)
    (hslot : romSlotOf s.params.romExtra key = some slot) (h2 : s.HasToken 2 value)
    (hval : DecimalParts s.params.decIntMax value neg ip fp) :
    ∃ alt, lDataTokens s = .go (s.lineWritten alt slot neg ip fp) := by
  have hthree : (s.alt.idMatch && (s.alt.tok.get 1).present && (s.alt.tok.get 2).present) = true := by
    rw [hmatch, h1.1, h2.1]
    rfl
  refine ⟨{ s.alt with key := key, keyValid := true }, ?_⟩
  rw [lDataTokens, if_pos hthree, doKeyParse_of_code h1 hcode, Flow.go_andThen]
  exact lDataKey_writes (s := s.setAlt { s.alt with key := key, keyValid := true }) rfl hslot
    (h2.of_same rfl rfl rfl) hval

theorem doLData_writes {more : List (List Byte)} (hn : s.alt.n ≤ s.len)
    (hline : lineTokens (s.bytes 0 s.alt.n) = ident :: code :: value :: more) (hid : s.params.dataId <+: ident)
    (hcode : CodeText code key) (hslot : romSlotOf s.params.romExtra key = some slot)
    (hval : DecimalParts s.params.decIntMax value neg ip fp) :
    ∃ alt, doLData s = .go (s.lineWritten alt slot neg ip fp) := by
  obtain ⟨t, hsplit, ht, htok⟩ := doTSplit_tokens hn
  rw [hline] at htok
  have h0 : t.HasToken 0 ident := htok 0 ident rfl
  have h1 : t.HasToken 1 code := htok 1 code rfl
  have h2 : t.HasToken 2 value := htok 2 value rfl
  have hmatch : dataIdMatches t.params.dataId ident = true := by
    rw [ht]
    exact dataIdMatches_iff.2 hid
  rw [doLData, hsplit, Flow.go_andThen, if_pos h0.1, doIdMatch_of_token h0, hmatch, Flow.go_andThen]
  obtain ⟨alt, hrun⟩ := lDataTokens_writes (s := t.setAlt { t.alt with idMatch := true }) (neg := neg) (ip := ip)
    (fp := fp) rfl (h1.of_same rfl rfl rfl) hcode (slot := slot) (by rw [ht]; exact hslot) (h2.of_same rfl rfl rfl)
    (by rw [ht]; exact hval)
  refine ⟨alt, hrun.trans ?_⟩
  rw [ht]
  rfl

end

/-- Settles O40: the line goes through to the write by `doLData_writes`, and the value written is rounded by
`decimalResult_roundsTo`. -/
theorem dataLineWrites : Obligations.DataLineWrites := by
  intro s ident code value more key slot neg ip fp hn hmax hline hid hcode hslot hval
  obtain ⟨alt, hrun⟩ := doLData_writes hn hline hid hcode hslot hval
  obtain ⟨-, -, -, hfp, -, hfp3, hcap⟩ := hval
  refine ⟨_, Flow.outcome_eq_next.2 (.inl hrun), rfl, ?_, fun j hj => ?_⟩
  · rw [State.lineWritten, State.setSlot_get_same]
    exact decimalResult_roundsTo neg hfp hfp3 (hcap.trans hmax)
  · rw [State.lineWritten, State.setSlot_get_other _ _ hj]

end Sys2Proof.Machine
end

section
/-! PROOFS for the family of 40_crc_engines.md. One shift is read bit by bit (`crcShift_getLsbD`); from that equation a
shift is linear over xor and, for a polynomial with bit 15 set, injective. Linearity gives the residues (R143, R149),
injectivity the detection of a changed byte (R150). -/

namespace Sys2Proof.Machine

/-! ## The shift (R142, R147) -/

theorem crcShifts_eq_iterate (poly : Half) (n : Nat) : crcShifts poly n = (crcShift poly)^[n] := by
  induction n with
  | zero => rfl
  | succ n ih => funext c; rw [crcShifts, ih, Function.iterate_succ_apply]

/-- Every bit comes from its left neighbour, and the polynomial's bits are flipped when a 1 leaves. -/
theorem crcShift_getLsbD (poly c : Half) (i : Nat) :
    (crcShift poly c).getLsbD i = (c.getLsbD (i + 1) ^^ (c.getLsbD 0 && poly.getLsbD i)) := by
  by_cases hc : c.getLsbD 0 = true
  · rw [crcShift, if_pos hc, hc, BitVec.getLsbD_xor, BitVec.getLsbD_ushiftRight, Nat.add_comm, Bool.true_and]
  · rw [crcShift, if_neg hc, Bool.eq_false_of_not_eq_true hc, BitVec.getLsbD_ushiftRight, Nat.add_comm,
      Bool.false_and, Bool.xor_false]

/-- A zero enters bit 15, so what stands there after a shift is the polynomial's bit or nothing. -/
theorem crcShift_getLsbD_top (poly c : Half) : (crcShift poly c).getLsbD 15 = (c.getLsbD 0 && poly.getLsbD 15) := by
  rw [crcShift_getLsbD, BitVec.getLsbD_of_ge c 16 le_rfl, Bool.false_xor]

theorem crcShift_of_getLsbD_zero {c : Half} (poly : Half) (h : c.getLsbD 0 = false) : crcShift poly c = c >>> 1 := by
  rw [crcShift, h]
  rfl

theorem crcShift_xor (poly c d : Half) : crcShift poly (c ^^^ d) = crcShift poly c ^^^ crcShift poly d := by
  refine BitVec.eq_of_getLsbD_eq fun i _ => ?_
  simp only [crcShift_getLsbD, BitVec.getLsbD_xor, Bool.and_xor_distrib_right, Bool.xor_assoc, Bool.xor_left_comm]

/-- With bit 15 of the polynomial set no shift loses information: bit 15 afterwards tells which bit left, and the
others then stand one place to the right. -/
theorem crcShift_injective {poly : Half} (hpoly : poly.getLsbD 15 = true) : (crcShift poly).Injective := by
  intro c d h
  have hbit (i : Nat) : (crcShift poly c).getLsbD i = (crcShift poly d).getLsbD i := by rw [h]
  have hleft : c.getLsbD 0 = d.getLsbD 0 := by
    have htop := hbit 15
    rwa [crcShift_getLsbD_top, crcShift_getLsbD_top, hpoly, Bool.and_true, Bool.and_true] at htop
  refine BitVec.eq_of_getLsbD_eq fun i _ => ?_
  cases i with
  | zero => exact hleft
  | succ i =>
    have hnext := hbit i
    rwa [crcShift_getLsbD, crcShift_getLsbD, hleft, Bool.xor_left_inj] at hnext

theorem crcShifts_xor (poly : Half) (n : Nat) (c d : Half) :
    crcShifts poly n (c ^^^ d) = crcShifts poly n c ^^^ crcShifts poly n d := by
  induction n generalizing c d with
  | zero => rfl
  | succ n ih => rw [crcShifts, crcShift_xor, ih]; rfl

theorem crcShifts_injective {poly : Half} (hpoly : poly.getLsbD 15 = true) (n : Nat) :
    (crcShifts poly n).Injective := by
  rw [crcShifts_eq_iterate]
  exact (crcShift_injective hpoly).iterate n

/-- As long as only zeros leave, the polynomial is never added. -/
theorem crcShifts_of_low_zero (poly : Half) {n : Nat} {c : Half} (h : ∀ i < n, c.getLsbD i = false) :
    crcShifts poly n c = c >>> n := by
  induction n generalizing c with
  | zero => rfl
  | succ n ih =>
    have hnext : ∀ i < n, (c >>> 1).getLsbD i = false := fun i hi => by
      rw [BitVec.getLsbD_ushiftRight]
      exact h _ (by omega)
    rw [crcShifts, crcShift_of_getLsbD_zero poly (h 0 n.succ_pos), ih hnext, ← BitVec.shiftRight_add, Nat.add_comm]

/-! ## One byte (R142, R147) -/

theorem crcByte_xor (poly c d : Half) (a b : Byte) :
    crcByte poly (c ^^^ d) (a ^^^ b) = crcByte poly c a ^^^ crcByte poly d b := by
  have hsum : c ^^^ d ^^^ (a ^^^ b).zeroExtend 16 = (c ^^^ a.zeroExtend 16) ^^^ (d ^^^ b.zeroExtend 16) := by
    rw [BitVec.zeroExtend, BitVec.setWidth_xor]
    ac_rfl
  rw [crcByte, hsum, crcShifts_xor]
  rfl

theorem crcByte_injective_register {poly : Half} (hpoly : poly.getLsbD 15 = true) (b : Byte) :
    (crcByte poly · b).Injective :=
  fun _ _ h => (BitVec.xor_left_inj _).1 (crcShifts_injective hpoly 8 h)

theorem crcByte_injective_byte {poly : Half} (hpoly : poly.getLsbD 15 = true) (c : Half) :
    (crcByte poly c).Injective := by
  intro a b h
  have hwide : a.zeroExtend 16 = b.zeroExtend 16 := (BitVec.xor_right_inj _).1 (crcShifts_injective hpoly 8 h)
  simpa using congrArg (BitVec.setWidth 8) hwide

/-- The register's own low byte cancels, and the high byte moves down. -/
theorem crcByte_own_low (poly c : Half) : crcByte poly c (c.extractLsb' 0 8) = c >>> 8 := by
  have hbit (i : Nat) (hi : i < 16) :
      (c ^^^ (c.extractLsb' 0 8).zeroExtend 16).getLsbD i = (c.getLsbD i && decide (8 ≤ i)) := by
    by_cases h8 : i < 8 <;> simp [hi, h8, Nat.not_le.2, Nat.le_of_not_lt]
  rw [crcByte, crcShifts_of_low_zero poly fun i hi => ?low]
  case low => rw [hbit i (by omega), decide_eq_false (by omega), Bool.and_false]
  refine BitVec.eq_of_getLsbD_eq fun i hi => ?_
  rw [BitVec.getLsbD_ushiftRight, BitVec.getLsbD_ushiftRight]
  by_cases h : 8 + i < 16
  · rw [hbit _ h, decide_eq_true (by omega), Bool.and_true]
  · rw [BitVec.getLsbD_of_ge _ _ (by omega), BitVec.getLsbD_of_ge _ _ (by omega)]

/-! ## Sequences (R143, R149) -/

theorem crcBytes_injective_register {poly : Half} (hpoly : poly.getLsbD 15 = true) (bs : List Byte) :
    (crcBytes poly · bs).Injective := by
  induction bs with
  | nil => exact fun _ _ h => h
  | cons b bs ih => exact fun _ _ h => crcByte_injective_register hpoly b (ih h)

/-- Two sequences that differ in one byte leave different registers: they differ after that byte, and the common rest
keeps them apart (R150). -/
theorem crcBytes_ne_of_byte_ne {poly : Half} (hpoly : poly.getLsbD 15 = true) (c : Half) (pre post : List Byte)
    {x y : Byte} (hxy : x ≠ y) : crcBytes poly c (pre ++ x :: post) ≠ crcBytes poly c (pre ++ y :: post) := by
  rw [crcBytes_append, crcBytes_append]
  exact fun h => hxy (crcByte_injective_byte hpoly _ (crcBytes_injective_register hpoly post h))

/-- The register's own two bytes, low byte first, leave zero. -/
theorem crcBytes_own (poly c : Half) : crcBytes poly c [c.extractLsb' 0 8, c.extractLsb' 8 8] = 0#16 := by
  have hhigh : c.extractLsb' 8 8 = (c >>> 8).extractLsb' 0 8 := by
    refine BitVec.eq_of_getLsbD_eq fun i hi => ?_
    simp [hi]
  calc crcByte poly (crcByte poly c (c.extractLsb' 0 8)) (c.extractLsb' 8 8)
      = c >>> 8 >>> 8 := by rw [crcByte_own_low, hhigh, crcByte_own_low]
    _ = c >>> 16 := (BitVec.shiftRight_add c 8 8).symm
    _ = 0#16 := BitVec.ushiftRight_eq_zero le_rfl

/-- The register's own two bytes with `m` added leave what `m` leaves in a zero register. -/
theorem crcBytes_own_xor (poly c m : Half) :
    crcBytes poly c [(c ^^^ m).extractLsb' 0 8, (c ^^^ m).extractLsb' 8 8] =
      crcBytes poly 0#16 [m.extractLsb' 0 8, m.extractLsb' 8 8] := by
  have hown : crcByte poly (crcByte poly c (c.extractLsb' 0 8)) (c.extractLsb' 8 8) = 0#16 := crcBytes_own poly c
  have hstart (b : Byte) : crcByte poly c (c.extractLsb' 0 8 ^^^ b) =
      crcByte poly c (c.extractLsb' 0 8) ^^^ crcByte poly 0#16 b := by
    rw [← crcByte_xor, BitVec.xor_zero]
  simp only [crcBytes, List.foldl_cons, List.foldl_nil, BitVec.extractLsb'_xor]
  rw [hstart, crcByte_xor, hown, BitVec.zero_xor]

/-- What the two bytes of the complement `0xFFFF` leave in a zero X-25 register. -/
theorem crcBytes_crcxXorOut :
    crcBytes crcxPoly 0#16 [crcxXorOut.extractLsb' 0 8, crcxXorOut.extractLsb' 8 8] = 0xF0B8 := by
  decide +kernel

/-! ## The statements of the family -/

/-- Settles O22: bit 15 of both polynomials is set, so `crcBytes_ne_of_byte_ne` holds of both engines. -/
theorem oneByteChangeDetected : Obligations.OneByteChangeDetected := by
  intro pre post x y hxy
  have harc : crcaPoly.getLsbD 15 = true := by decide
  have hx25 : crcxPoly.getLsbD 15 = true := by decide
  exact ⟨crcBytes_ne_of_byte_ne harc _ pre post hxy,
    fun h => crcBytes_ne_of_byte_ne hx25 _ pre post hxy ((BitVec.xor_left_inj _).1 h)⟩

/-- Settles O23: an ARC sequence is followed by the register itself, an X-25 sequence by the register with `0xFFFF`
added, whose two bytes leave `0xF0B8` in a zero register. -/
theorem checksumResidues : Obligations.ChecksumResidues := by
  intro bs
  refine ⟨?arc, ?x25⟩
  case arc =>
    rw [crca, crcBytes_append]
    exact crcBytes_own crcaPoly (crca bs)
  case x25 =>
    rw [crcBytes_append]
    exact (crcBytes_own_xor crcxPoly (crcBytes crcxPoly crcxInit bs) crcxXorOut).trans crcBytes_crcxXorOut

/-- Settles O21: each operation is its write of one register, and the eight shifts of a byte are an iterate. -/
theorem crcOperations : Obligations.CrcOperations := by
  intro b s
  have hbyte (poly c : Half) : crcByte poly c b = (crcShift poly)^[8] (c ^^^ b.zeroExtend 16) := by
    rw [crcByte, crcShifts_eq_iterate]
  refine ⟨rfl, ?arc, rfl, ?x25, rfl, rfl, by decide⟩
  case arc => exact congrArg (Host.Outcome.next <| s.setCrc ·) (hbyte crcaPoly s.agg.crc)
  case x25 => exact congrArg (Host.Outcome.next <| s.setFcs ·) (hbyte crcxPoly s.fcs)

end Sys2Proof.Machine
end

section
/-! PROOFS for the family of 41_register_rom.md. The ROM's answer is one function of the key, `romSlotOf`: its three
cases, a fixed row, an extra row, no row, are said once (R161, R165). A line that `L.DATA` ignores leaves its sequence
at one of four places, each before the value is parsed (R164, R200). -/

namespace Sys2Proof.Machine

/-! ## The rows as R162's table lists them -/

/-- A fixed row as the table of R162 lists it: the operation, the key, the slot. -/
def tableEntry (row : RomRow) : Instr × (Byte × Byte × Byte) × Fin 28 :=
  (row.instr, (row.key.c, row.key.d, row.key.e), row.slot)

theorem romTable_eq_map : romTable = romFixed.map tableEntry := rfl

theorem mem_romTable {entry : Instr × (Byte × Byte × Byte) × Fin 28} :
    entry ∈ romTable ↔ ∃ row ∈ romFixed, tableEntry row = entry := by
  rw [romTable_eq_map, List.mem_map]

theorem Key.eq_of_parts {j k : Key} (h : (j.c, j.d, j.e) = (k.c, k.d, k.e)) : j = k := by
  obtain ⟨c, d, e⟩ := j
  obtain ⟨c', d', e'⟩ := k
  simpa using h

/-! ## The slot of a key (R161, R165) -/

section
variable {extra : List (Key × Fin 28)} {key : Key}

theorem romSlotOf_of_row {row : RomRow} (h : row ∈ romFixed) : romSlotOf extra row.key = some row.slot := by
  obtain ⟨-, hfind, -⟩ := romFixed_row row h
  rw [romSlotOf, hfind]

theorem romFixedRow_eq_none (h : ∀ row ∈ romFixed, row.key ≠ key) : romFixedRow key = none :=
  List.find?_eq_none.2 fun row hrow => by simpa using h row hrow

/-- An extra row answers for its key, since no other row has it (R165). -/
theorem romSlotOf_of_extra {slot : Fin 28} (hfixed : ∀ row ∈ romFixed, row.key ≠ key)
    (hnodup : (extra.map Prod.fst).Nodup) (h : (key, slot) ∈ extra) : romSlotOf extra key = some slot := by
  have hfind : extra.find? (fun r => r.1 == key) = some (key, slot) := by
    cases hr : extra.find? fun r => r.1 == key with
    | none => exact absurd (List.find?_eq_none.1 hr _ h) (by simp)
    | some r =>
      have hkey : r.1 = key := by simpa using List.find?_some hr
      exact congrArg some (List.inj_on_of_nodup_map hnodup (List.mem_of_find?_eq_some hr) h hkey)
  rw [romSlotOf, romFixedRow_eq_none hfixed, hfind]

theorem romSlotOf_eq_none (hfixed : ∀ row ∈ romFixed, row.key ≠ key) (hextra : ∀ r ∈ extra, r.1 ≠ key) :
    romSlotOf extra key = none := by
  have hfind : extra.find? (fun r => r.1 == key) = none :=
    List.find?_eq_none.2 fun r hr => by simpa using hextra r hr
  rw [romSlotOf, romFixedRow_eq_none hfixed, hfind]

end

theorem doRomLkp_of_miss {s : State} {key : Key} (h : romSlotOf s.params.romExtra key = none) :
    doRomLkp key s = s.setLatch { s.latch with romHit := false } := by rw [doRomLkp, h]

/-- Settles O24: an entry of the table is a row of the ROM, whose operation and whose key both drive its slot out. -/
theorem romRows : Obligations.RomRows := by
  refine ⟨rfl, fun entry hentry s => ?_⟩
  obtain ⟨row, hrow, rfl⟩ := mem_romTable.1 hentry
  have hrun : exec row.instr s = .next (romDrive row.slot s) := exec_row s row hrow
  exact ⟨hrun, (congrArg _ (doRomLkp_of_slot (romSlotOf_of_row hrow))).trans hrun.symm⟩

/-- Settles O25: a legal extra row has no key of the fixed rows or of another extra row, so the first row with the key
is the only one. -/
theorem romLookup : Obligations.RomLookup := by
  rintro s key ⟨-, -, -, hextra, hnodup, -⟩
  refine ⟨fun slot h => congrArg _ (doRomLkp_of_slot ?_), fun hfixed hmiss => congrArg _ (doRomLkp_of_miss ?_)⟩
  · obtain ⟨entry, hentry, hslot⟩ | hmem := h
    · obtain ⟨row, hrow, rfl⟩ := mem_romTable.1 hentry
      obtain ⟨hparts, rfl⟩ := Prod.mk.inj hslot
      rw [← Key.eq_of_parts hparts]
      exact romSlotOf_of_row hrow
    · obtain ⟨-, hforeign⟩ := hextra _ hmem
      exact romSlotOf_of_extra hforeign hnodup hmem
  · refine romSlotOf_eq_none (fun row hrow hkey => ?_) hmiss
    exact hfixed _ (mem_romTable.2 ⟨row, hrow, rfl⟩) (by rw [← hkey]; rfl)

/-! ## An ill-formed code (R112, R203) -/

theorem splitDots_eq_splitOn (t : List Byte) : splitDots t = t.splitOn dot := by
  induction t with
  | nil => rfl
  | cons b t ih =>
    rw [splitDots, ih, List.splitOn_cons_eq_if_modifyHead]
    cases hs : t.splitOn dot with
    | nil => exact absurd hs (by simp)
    | cons g gs => simp

/-- The three fields of a text are what stands around its two dots. -/
theorem eq_of_splitDots_three {t g0 g1 g2 : List Byte} (h : splitDots t = [g0, g1, g2]) :
    t = g0 ++ [dot] ++ g1 ++ [dot] ++ g2 := by
  rw [← List.intercalate_splitOn (xs := t) dot, ← splitDots_eq_splitOn, h]
  simp [List.intercalate]

theorem keySegment_of_segmentOf {g : List Byte} {c : Byte} (h : segmentOf g = some c) :
    KeySegment g ∧ c = BitVec.ofNat 8 (digitsToNat g) := by
  unfold segmentOf at h
  split at h
  next hseg =>
    obtain ⟨h1, h3, hall, hval⟩ := hseg
    exact ⟨⟨fun b hb => isDigit_iff.1 (List.all_eq_true.1 hall b hb), h1, h3, hval⟩, (Option.some.inj h).symm⟩
  next => cases h

/-- The key parser accepts only the texts of R203's grammar. -/
theorem codeText_of_keyOfToken {code : List Byte} {key : Key} (h : keyOfToken code = some key) :
    CodeText code key := by
  unfold keyOfToken at h
  split at h
  next g0 g1 g2 hsplit =>
    split at h
    next c d e hc hd he =>
      obtain ⟨h0, rfl⟩ := keySegment_of_segmentOf hc
      obtain ⟨h1, rfl⟩ := keySegment_of_segmentOf hd
      obtain ⟨h2, rfl⟩ := keySegment_of_segmentOf he
      exact ⟨g0, g1, g2, eq_of_splitDots_three hsplit, h0, h1, h2, (Option.some.inj h).symm⟩
    next => cases h
  next => cases h

theorem keyOfToken_eq_none {code : List Byte} (h : ∀ key, ¬ CodeText code key) : keyOfToken code = none :=
  Option.eq_none_iff_forall_ne_some.2 fun key hkey => h key (codeText_of_keyOfToken hkey)

/-! ## A line that `L.DATA` ignores (R164, R200) -/

/-- The flow goes on from `s` with only the tokenizer's registers and the result latches written. -/
def Flow.Ignores (f : Flow) (s : State) : Prop := ∃ a l, f = .go { s with alt := a, latch := l }

/-- Writing the tokenizer's registers first changes nothing of it. -/
theorem Flow.Ignores.of_setAlt {f : Flow} {s u : State} (h : f.Ignores u) (hu : u = s.setAlt u.alt) :
    f.Ignores s := by
  obtain ⟨a, l, rfl⟩ := h
  refine ⟨a, l, ?_⟩
  rw [hu]
  rfl

/-- A register for which the line has no token is left absent (R201). -/
theorem doTSplit_absent {s t : State} {k : Fin 4} (hn : s.alt.n ≤ s.len) (h : doTSplit s = .go t)
    (hk : (lineTokens (s.bytes 0 s.alt.n)).length ≤ k.val) : (t.alt.tok.get k).present = false := by
  rw [doTSplit, State.withBytes_of_le hn] at h
  cases h
  obtain ⟨hruns, -⟩ := tokenRuns_text s (bs := s.bytes 0 s.alt.n) rfl (Nat.zero_le _)
  rw [lineTokens_eq, ← hruns, List.length_map] at hk
  rw [State.setAlt_alt, splitTokens_get, List.getD_eq_default _ _ hk]

section
variable {s : State} {ident code : List Byte} {more : List (List Byte)}

theorem doKeyParse_of_ill_formed {k : Fin 4} (h : s.HasToken k code) (hcode : ∀ key, ¬ CodeText code key) :
    doKeyParse k s = .go (s.setAlt { s.alt with keyValid := false }) := by
  rw [doKeyParse, h.withToken, keyOfToken_eq_none hcode]

theorem lDataTokens_of_mismatch (h : s.alt.idMatch = false) : lDataTokens s = .go s := by
  simp [lDataTokens, h]

theorem lDataTokens_of_absent (h : (s.alt.tok.get 2).present = false) : lDataTokens s = .go s := by
  simp [lDataTokens, h]

theorem lDataKey_of_miss (hkey : s.alt.keyValid = true) (hmiss : romSlotOf s.params.romExtra s.alt.key = none) :
    lDataKey s = .go (s.setLatch { s.latch with romHit := false }) := by
  rw [lDataKey, if_pos hkey, doRomLkp_of_miss hmiss]
  rfl

/-- Whatever the identifier, a second token that is no code ends the line unnoticed. -/
theorem lDataTokens_of_ill_formed (h1 : s.HasToken 1 code) (hcode : ∀ key, ¬ CodeText code key) :
    (lDataTokens s).Ignores s := by
  unfold lDataTokens
  split
  · rw [doKeyParse_of_ill_formed h1 hcode]
    exact ⟨_, _, rfl⟩
  · exact ⟨_, _, rfl⟩

/-- Whatever the identifier, a code the ROM does not know ends the line before the value is read (R164). -/
theorem lDataTokens_of_miss {key : Key} (h1 : s.HasToken 1 code) (hcode : CodeText code key)
    (hmiss : romSlotOf s.params.romExtra key = none) : (lDataTokens s).Ignores s := by
  unfold lDataTokens
  split
  · rw [doKeyParse_of_code h1 hcode, Flow.go_andThen, lDataKey_of_miss rfl hmiss]
    exact ⟨_, _, rfl⟩
  · exact ⟨_, _, rfl⟩

/-- A line without tokens ends after `T.SPLIT`. -/
theorem doLData_of_no_token (hn : s.alt.n ≤ s.len) (hline : lineTokens (s.bytes 0 s.alt.n) = []) :
    (doLData s).Ignores s := by
  obtain ⟨t, hsplit, ht, -⟩ := doTSplit_tokens hn
  have h0 : (t.alt.tok.get 0).present = false := doTSplit_absent hn hsplit (by rw [hline]; exact Nat.zero_le _)
  refine ⟨t.alt, s.latch, ?_⟩
  rw [doLData, hsplit, Flow.go_andThen, h0, if_neg Bool.false_ne_true, ht]
  rfl

/-- A line with a first token reaches the middle of `L.DATA`, its tokens in the registers and the identifier
compared (R200 to R202). -/
theorem doLData_of_ident (hn : s.alt.n ≤ s.len) (hline : lineTokens (s.bytes 0 s.alt.n) = ident :: more) :
    ∃ u : State, doLData s = lDataTokens u ∧ u = s.setAlt u.alt ∧
      u.alt.idMatch = dataIdMatches s.params.dataId ident ∧
      (∀ (k : Fin 4) (text : List Byte), (ident :: more)[k.val]? = some text → u.HasToken k text) ∧
      ∀ k : Fin 4, (ident :: more).length ≤ k.val → (u.alt.tok.get k).present = false := by
  obtain ⟨t, hsplit, ht, htok⟩ := doTSplit_tokens hn
  have habsent := fun k : Fin 4 => doTSplit_absent (k := k) hn hsplit
  rw [hline] at htok habsent
  have h0 : t.HasToken 0 ident := htok 0 ident rfl
  refine ⟨t.setAlt { t.alt with idMatch := dataIdMatches t.params.dataId ident }, ?_, ?_, ?_, fun k text hk => ?_,
    habsent⟩
  · rw [doLData, hsplit, Flow.go_andThen, if_pos h0.1, doIdMatch_of_token h0, Flow.go_andThen]
  · rw [ht]
    rfl
  · rw [ht]
    rfl
  · exact (htok k text hk).of_same rfl rfl rfl

/-- A line of fewer than three tokens is ignored. -/
theorem doLData_of_short (hn : s.alt.n ≤ s.len) (hshort : (lineTokens (s.bytes 0 s.alt.n)).length < 3) :
    (doLData s).Ignores s := by
  cases hline : lineTokens (s.bytes 0 s.alt.n) with
  | nil => exact doLData_of_no_token hn hline
  | cons ident more =>
    obtain ⟨u, hrun, hu, -, -, habsent⟩ := doLData_of_ident hn hline
    have h2 : (u.alt.tok.get 2).present = false := habsent 2 (by rw [hline] at hshort; exact Nat.le_of_lt_succ hshort)
    rw [hrun, lDataTokens_of_absent h2]
    exact ⟨_, _, congrArg _ hu⟩

/-- A line with a foreign identifier, an ill-formed code or an unknown register is ignored. -/
theorem doLData_of_foreign (hn : s.alt.n ≤ s.len) (hline : lineTokens (s.bytes 0 s.alt.n) = ident :: code :: more)
    (h : ¬ s.params.dataId <+: ident ∨ (∀ key, ¬ CodeText code key) ∨
      ∃ key, CodeText code key ∧ romSlotOf s.params.romExtra key = none) : (doLData s).Ignores s := by
  obtain ⟨u, hrun, hu, hmatch, htok, -⟩ := doLData_of_ident hn hline
  have h1 : u.HasToken 1 code := htok 1 code rfl
  rw [hrun]
  obtain hid | hcode | ⟨key, hcode, hmiss⟩ := h
  · have hno : u.alt.idMatch = false := by
      rw [hmatch]
      exact eq_false_of_ne_true (mt dataIdMatches_iff.1 hid)
    rw [lDataTokens_of_mismatch hno]
    exact ⟨_, _, congrArg _ hu⟩
  · exact (lDataTokens_of_ill_formed h1 hcode).of_setAlt hu
  · have hmiss' : romSlotOf u.params.romExtra key = none := by rw [hu]; exact hmiss
    exact (lDataTokens_of_miss h1 hcode hmiss').of_setAlt hu

end

/-- Settles O41: a short line by `doLData_of_short`, the other three kinds by `doLData_of_foreign`. -/
theorem dataLineIgnored : Obligations.DataLineIgnored := by
  intro s hn h
  have hignores : (doLData s).Ignores s := by
    obtain hshort | ⟨ident, code, value, more, hline, hwhy⟩ := h
    · exact doLData_of_short hn hshort
    · exact doLData_of_foreign hn hline hwhy
  obtain ⟨a, l, hgo⟩ := hignores
  exact ⟨_, Flow.outcome_eq_next.2 (.inl hgo), rfl⟩

end Sys2Proof.Machine
end

section
/-! PROOFS for the family of 42_decimal_parsers.md. Each operation's effect within and beyond its limit, the values of
`DEC.END` and `SCL.SCALE` by `round64_roundsTo`, and the converse of `decParseText_decimal`: what the parser has read at
each point of a token is a beginning of the grammar (`Dec.Reads`), so a token it does not raise on is a text of it. -/

namespace Sys2Proof.Machine

/-! ## The operations within and beyond their limits (R173, R175, R176) -/

theorem doDecDigit_of_le {s : State} {x : Nat} (h : s.dec.intPart * 10 + x ≤ s.params.decIntMax) :
    doDecDigit x s = .go (s.setDec { s.dec with intPart := s.dec.intPart * 10 + x, dstate := .int }) :=
  if_neg (Nat.not_lt.2 h)

theorem doDecDigit_of_lt {s : State} {x : Nat} (h : s.params.decIntMax < s.dec.intPart * 10 + x) :
    doDecDigit x s = .ended ((s.setDec { s.dec with intPart := s.dec.intPart * 10 + x }).afterAbort .malformedValue) :=
  if_pos h

theorem doDecFrac_of_lt {s : State} {x : Nat} (h : s.dec.nf < 3) :
    doDecFrac x s =
      .go (s.setDec { s.dec with frac := s.dec.frac * 10 + x, nf := s.dec.nf + 1, dstate := .frac }) :=
  if_neg (Nat.not_le.2 h)

theorem doDecFrac_of_le {s : State} {x : Nat} (h : 3 ≤ s.dec.nf) :
    doDecFrac x s = .ended (s.afterAbort .malformedValue) := if_pos h

theorem doDecEnd_of_frac {s : State} (h : s.dec.dstate = .frac) :
    doDecEnd s =
      .go (s.setLatch { s.latch with value := decimalResult s.dec.neg s.dec.intPart s.dec.frac s.dec.nf }) := if_pos h

theorem doDecEnd_of_ne {s : State} (h : s.dec.dstate ≠ .frac) :
    doDecEnd s = .ended (s.afterAbort .malformedValue) := if_neg h

/-- Settles O27, each operation by its equations within and beyond its limit. -/
theorem decimalCharacters : Obligations.DecimalCharacters := by
  intro s x _
  refine ⟨rfl, rfl, fun hcap => ?_, fun hcap => ?_, fun hnf => ?_, fun hnf => ?_⟩
  · exact congrArg Flow.outcome (doDecDigit_of_le hcap)
  · exact congrArg Flow.outcome (doDecDigit_of_lt hcap)
  · exact congrArg Flow.outcome (doDecFrac_of_lt hnf)
  · exact congrArg Flow.outcome (doDecFrac_of_le hnf)

/-! ## The values (R176, R178, R180) -/

/-- The decimal of parts in the ranges of R170 is correctly rounded. -/
theorem decimalResult_roundsTo_of_lt (neg : Bool) {ip fp nf : Nat} (hip : ip ≤ 2147483647) (hnf : nf ≤ 3)
    (hfp : fp < 10 ^ nf) :
    RoundsTo ((if neg = true then -1 else 1) * (((ip * 10 ^ nf + fp : Nat) : ℚ) / (10 ^ nf : ℚ)))
      (decimalResult neg ip fp nf) := by
  have hpow : 10 ^ nf ≤ 10 ^ 3 := Nat.pow_le_pow_right (by omega) hnf
  have hprod : ip * 10 ^ nf ≤ 2147483647 * 10 ^ 3 := Nat.mul_le_mul hip hpow
  have hround := round64_roundsTo neg (num := ip * 10 ^ nf + fp) (den := 10 ^ nf) (by omega) (by omega) (by omega)
  rw [Nat.cast_pow, Nat.cast_ofNat] at hround
  rwa [ite_mul, neg_one_mul, one_mul]

/-- Settles O28, by `decimalResult_roundsTo_of_lt`. -/
theorem decimalEnd : Obligations.DecimalEnd := by
  intro s
  refine ⟨fun hfrac hip _ hnf hfp => ?_, fun hne => ?_⟩
  · exact ⟨_, congrArg Flow.outcome (doDecEnd_of_frac hfrac), decimalResult_roundsTo_of_lt _ hip hnf hfp⟩
  · exact congrArg Flow.outcome (doDecEnd_of_ne hne)

/-- Settles O29, by `doDecParse_of_decimal` and `decimalResult_roundsTo`. -/
theorem decimalAccepted : Obligations.DecimalAccepted := by
  intro s k neg ip fp hp hstop hmax hparts
  have hrun := doDecParse_of_decimal (k := k) ⟨hp, hstop, rfl⟩ hparts
  obtain ⟨-, -, -, hfp, -, hlen, hcap⟩ := hparts
  exact ⟨_, congrArg Flow.outcome hrun, decimalResult_roundsTo neg hfp hlen (hcap.trans hmax)⟩

/-- An entry of the power-of-ten table is the power of ten it stands for (R181). -/
theorem powerOfTen_value {e : Int} {num den : Nat} (h : powerOfTen e = some (num, den)) :
    (num / den : ℚ) = (10 : ℚ) ^ e := by
  unfold powerOfTen at h
  split_ifs at h
  all_goals cases h; subst e; norm_num

/-- A product of a 32-bit number and a power of ten is correctly rounded (R180). -/
theorem scaledValue_roundsTo {raw e : Int} {v : F64} (hraw : raw.natAbs < 2 ^ 32) (h : scaledValue raw e = some v) :
    RoundsTo ((raw : ℚ) * (10 : ℚ) ^ e) v := by
  unfold scaledValue at h
  split at h
  next num den hp =>
    obtain ⟨hnum, hden, hden'⟩ := powerOfTen_bounds hp
    cases h
    have hprod : raw.natAbs * num ≤ 2 ^ 32 * 100000 := Nat.mul_le_mul hraw.le hnum
    have hround := round64_roundsTo (decide (raw < 0)) (num := raw.natAbs * num) (den := den)
      (by omega) hden (by omega)
    have hsign : (raw : ℚ) = if raw < 0 then -(raw.natAbs : ℚ) else raw.natAbs := by
      rw [Nat.cast_natAbs]
      split_ifs with hneg
      · rw [abs_of_neg hneg, Int.cast_neg, neg_neg]
      · rw [abs_of_nonneg (not_lt.1 hneg)]
    have hvalue : (raw : ℚ) * (10 : ℚ) ^ e =
        if raw < 0 then -(((raw.natAbs * num : Nat) : ℚ) / den) else ((raw.natAbs * num : Nat) : ℚ) / den := by
      rw [← powerOfTen_value hp, hsign, ite_mul, Nat.cast_mul, neg_mul, mul_div_assoc]
    simpa only [hvalue, decide_eq_true_eq] using hround
  next => cases h

/-- Settles O31: the table has an entry for the exponent, and the product is rounded by `scaledValue_roundsTo`. -/
theorem scaleResult : Obligations.ScaleResult := by
  intro s raw e hlo hhi helo hehi
  obtain ⟨v, hv⟩ := exists_scaledValue raw ⟨helo, hehi⟩
  refine ⟨v, ?_, scaledValue_roundsTo (by omega) hv⟩
  have hrun : doSclScale raw e s = .go (s.setLatch { s.latch with value := v }) := by rw [doSclScale, hv]
  exact congrArg Flow.outcome hrun

/-! ## What the parser has read (R171) -/

/-- The state of the parser before the point, by what it has read of the sign and the integer part. -/
def wholeState : Bool → List Byte → DState
  | _, _ :: _ => .int
  | true, [] => .sign
  | false, [] => .start

/-- The state of the parser after the point, by what it has read of the fraction. -/
def fractionState : List Byte → DState
  | [] => .point
  | _ :: _ => .frac

/-- The optional sign of a value text (R171). -/
def signText (neg : Bool) : List Byte := if neg then [minus] else []

/-- The registers before the point. -/
def Dec.ofWhole (neg : Bool) (ip : List Byte) : Dec :=
  { dstate := wholeState neg ip, neg := neg, intPart := digitsToNat ip, frac := 0, nf := 0 }

/-- The registers after the point. -/
def Dec.ofFraction (neg : Bool) (ip fp : List Byte) : Dec :=
  { dstate := fractionState fp, neg := neg, intPart := digitsToNat ip, frac := digitsToNat fp, nf := fp.length }

/-- The registers are those of a parser that has read `t`, a beginning of the grammar under the cap (R171, R173). -/
inductive Dec.Reads (cap : Nat) : Dec → List Byte → Prop where
  | whole {neg : Bool} {ip : List Byte} : AllDigits ip → digitsToNat ip ≤ cap →
      Dec.Reads cap (Dec.ofWhole neg ip) (signText neg ++ ip)
  | fraction {neg : Bool} {ip fp : List Byte} : AllDigits ip → ip ≠ [] → digitsToNat ip ≤ cap → AllDigits fp →
      fp.length ≤ 3 → Dec.Reads cap (Dec.ofFraction neg ip fp) (decimalText neg ip fp)

theorem AllDigits.snoc {t : List Byte} {b : Byte} (h : AllDigits t) (hb : isDigit b = true) : AllDigits (t ++ [b]) := by
  intro c hc
  obtain hc | hc := List.mem_append.1 hc
  · exact h c hc
  · rw [List.mem_singleton.1 hc]
    exact isDigit_iff.1 hb

theorem digitsToNat_snoc (t : List Byte) (b : Byte) : digitsToNat (t ++ [b]) = digitsToNat t * 10 + digitValue b := by
  rw [digitsToNat, List.foldl_append]
  rfl

/-- A digit before the point is one more digit of the integer part (R173). -/
theorem Dec.ofWhole_snoc (neg : Bool) (ip : List Byte) (b : Byte) :
    Dec.ofWhole neg (ip ++ [b]) =
      { Dec.ofWhole neg ip with intPart := (Dec.ofWhole neg ip).intPart * 10 + digitValue b, dstate := .int } := by
  have hstate : wholeState neg (ip ++ [b]) = .int := by cases ip <;> rfl
  rw [Dec.ofWhole, hstate, digitsToNat_snoc]
  rfl

/-- A digit after the point is one more digit of the fraction (R175). -/
theorem Dec.ofFraction_snoc (neg : Bool) (ip fp : List Byte) (b : Byte) :
    Dec.ofFraction neg ip (fp ++ [b]) =
      { Dec.ofFraction neg ip fp with
        frac := (Dec.ofFraction neg ip fp).frac * 10 + digitValue b, nf := (Dec.ofFraction neg ip fp).nf + 1,
        dstate := .frac } := by
  have hstate : fractionState (fp ++ [b]) = .frac := by cases fp <;> rfl
  rw [Dec.ofFraction, hstate, digitsToNat_snoc, List.length_append]
  rfl

theorem wholeState_eq_int {neg : Bool} {ip : List Byte} (h : wholeState neg ip = .int) : ip ≠ [] := by
  rintro rfl
  cases neg <;> cases h

theorem wholeState_eq_start {neg : Bool} {ip : List Byte} (h : wholeState neg ip = .start) : neg = false ∧ ip = [] := by
  cases ip with
  | cons b bs => cases h
  | nil =>
    cases neg with
    | true => cases h
    | false => exact ⟨rfl, rfl⟩

theorem wholeState_cases (neg : Bool) (ip : List Byte) :
    wholeState neg ip = .start ∨ wholeState neg ip = .sign ∨ wholeState neg ip = .int := by
  cases ip with
  | cons b bs => exact .inr (.inr rfl)
  | nil =>
    cases neg with
    | true => exact .inr (.inl rfl)
    | false => exact .inl rfl

theorem fractionState_cases (fp : List Byte) : fractionState fp = .point ∨ fractionState fp = .frac := by
  cases fp with
  | nil => exact .inl rfl
  | cons b bs => exact .inr rfl

theorem wholeState_ne_frac (neg : Bool) (ip : List Byte) : wholeState neg ip ≠ .frac := by
  obtain h | h | h := wholeState_cases neg ip
  all_goals rw [h]; exact nofun

theorem fractionState_eq_frac {fp : List Byte} (h : fractionState fp = .frac) : fp ≠ [] := by
  rintro rfl
  cases h

theorem decimalText_nil (neg : Bool) (ip : List Byte) : decimalText neg ip [] = signText neg ++ ip ++ [dot] :=
  List.append_nil _

theorem decimalText_append (neg : Bool) (ip fp bs : List Byte) :
    decimalText neg ip fp ++ bs = decimalText neg ip (fp ++ bs) := List.append_assoc ..

/-! ## The run of the parser over a token (R171, R177) -/

/-- `u` is `s` with a parser that has read `t`. -/
def State.HasRead (s : State) (t : List Byte) (u : State) : Prop :=
  ∃ d, u = s.setDec d ∧ d.Reads s.params.decIntMax t

/-- `u` is what `MalformedValue` leaves of `s`, whatever the parser's registers hold. -/
def State.ValueRefused (s u : State) : Prop := ∃ d, u = (s.setDec d).afterAbort .malformedValue

/-- A digit that takes the integer part over the cap (R173, R177). -/
theorem decStep_digit_of_lt (s : State) {d : Dec} {b : Byte} (hb : isDigit b = true)
    (hd : d.dstate = .start ∨ d.dstate = .sign ∨ d.dstate = .int)
    (hover : s.params.decIntMax < d.intPart * 10 + digitValue b) :
    decStep b (s.setDec d) =
      .ended ((s.setDec { d with intPart := d.intPart * 10 + digitValue b }).afterAbort .malformedValue) := by
  unfold decStep
  rw [State.setDec_dec, decSel_digit hb hd]
  exact doDecDigit_of_lt (s := s.setDec d) hover

/-- A fourth fractional digit (R175, R177). -/
theorem decStep_frac_of_le (s : State) {d : Dec} {b : Byte} (hb : isDigit b = true)
    (hd : d.dstate = .point ∨ d.dstate = .frac) (hnf : 3 ≤ d.nf) :
    decStep b (s.setDec d) = .ended ((s.setDec d).afterAbort .malformedValue) := by
  unfold decStep
  rw [State.setDec_dec, decSel_frac hb hd]
  exact doDecFrac_of_le (s := s.setDec d) hnf

/-- A byte that is no digit: a first minus, a point after a digit, or an error (R172, R174, R177). -/
theorem decStep_of_not_digit (s : State) {d : Dec} {b : Byte} (hb : isDigit b = false) :
    decStep b (s.setDec d) =
      if b = minus ∧ d.dstate = .start then .go (s.setDec { d with neg := true, dstate := .sign })
      else if b = dot ∧ d.dstate = .int then .go (s.setDec { d with dstate := .point })
      else .ended ((s.setDec d).afterAbort .malformedValue) := by
  unfold decStep
  rw [State.setDec_dec, decSel_of_not_digit hb]
  split_ifs
  all_goals rfl

section
variable {s : State} {neg : Bool} {ip fp : List Byte}

/-- One byte while no point was read: a digit while the cap holds, a first minus, a point after a digit. -/
theorem decStep_reads_whole (b : Byte) (hip : AllDigits ip) (hcap : digitsToNat ip ≤ s.params.decIntMax) :
    (decStep b (s.setDec (Dec.ofWhole neg ip))).Meets True (s.HasRead (signText neg ++ ip ++ [b])) s.ValueRefused := by
  cases hb : isDigit b with
  | true =>
    have hd := wholeState_cases neg ip
    rcases Nat.lt_or_ge s.params.decIntMax (digitsToNat ip * 10 + digitValue b) with hover | hle
    · rw [decStep_digit_of_lt s (d := Dec.ofWhole neg ip) hb hd hover]
      exact ⟨_, rfl⟩
    · have hread := Dec.Reads.whole (neg := neg) (hip.snoc hb) ((digitsToNat_snoc ip b).trans_le hle)
      rw [decStep_digit s (d := Dec.ofWhole neg ip) hb hd hle, ← Dec.ofWhole_snoc, List.append_assoc]
      exact ⟨_, rfl, hread⟩
  | false =>
    rw [decStep_of_not_digit s hb]
    split_ifs with hminus hdot
    · obtain ⟨rfl, hstart⟩ := hminus
      obtain ⟨rfl, rfl⟩ := wholeState_eq_start hstart
      exact ⟨_, rfl, .whole (neg := true) hip hcap⟩
    · obtain ⟨rfl, hint⟩ := hdot
      have hread := Dec.Reads.fraction (neg := neg) hip (wholeState_eq_int hint) hcap (fp := []) (fun _ => nofun)
        (Nat.zero_le 3)
      rw [decimalText_nil] at hread
      exact ⟨_, rfl, hread⟩
    · exact ⟨_, rfl⟩

/-- One byte after the point: only a digit, and only the first three. -/
theorem decStep_reads_fraction (b : Byte) (hip : AllDigits ip) (hne : ip ≠ [])
    (hcap : digitsToNat ip ≤ s.params.decIntMax) (hfp : AllDigits fp) :
    (decStep b (s.setDec (Dec.ofFraction neg ip fp))).Meets True (s.HasRead (decimalText neg ip fp ++ [b]))
      s.ValueRefused := by
  have hd := fractionState_cases fp
  cases hb : isDigit b with
  | true =>
    rcases Nat.lt_or_ge fp.length 3 with hlt | hge
    · have hlen : (fp ++ [b]).length ≤ 3 := by rw [List.length_append]; exact hlt
      have hread := Dec.Reads.fraction (neg := neg) hip hne hcap (hfp.snoc hb) hlen
      rw [decStep_frac s (d := Dec.ofFraction neg ip fp) hb hd hlt, ← Dec.ofFraction_snoc, decimalText_append]
      exact ⟨_, rfl, hread⟩
    · rw [decStep_frac_of_le s (d := Dec.ofFraction neg ip fp) hb hd hge]
      exact ⟨_, rfl⟩
  | false =>
    have hbad : fractionState fp ≠ .start ∧ fractionState fp ≠ .int := by
      obtain h | h := hd
      all_goals rw [h]; decide
    obtain ⟨hstart, hint⟩ := hbad
    rw [decStep_of_not_digit s hb, if_neg fun h => hstart h.2, if_neg fun h => hint h.2]
    exact ⟨_, rfl⟩

/-- The bytes of the token in order (R171). -/
theorem decRun_reads (bs : List Byte) {t : List Byte} {u : State} (h : s.HasRead t u) :
    (decRun bs u).Meets True (s.HasRead (t ++ bs)) s.ValueRefused := by
  induction bs generalizing t u with
  | nil => rwa [List.append_nil]
  | cons b bs ih =>
    have hstep : (decStep b u).Meets True (s.HasRead (t ++ [b])) s.ValueRefused := by
      obtain ⟨d, rfl, hread⟩ := h
      cases hread with
      | whole hip hcap => exact decStep_reads_whole b hip hcap
      | fraction hip hne hcap hfp _ => exact decStep_reads_fraction b hip hne hcap hfp
    rw [List.append_cons]
    exact hstep.andThen fun v hv => ih hv

/-- At the end of the token the parser goes on only after a whole text of the grammar (R176). -/
theorem doDecEnd_reads {t : List Byte} {u : State} (h : s.HasRead t u) :
    (doDecEnd u).Meets True (fun _ => ∃ neg ip fp, DecimalParts s.params.decIntMax t neg ip fp) s.ValueRefused := by
  obtain ⟨d, rfl, hread⟩ := h
  by_cases hd : d.dstate = .frac
  · rw [doDecEnd_of_frac hd]
    cases hread with
    | @whole neg ip => exact absurd hd (wholeState_ne_frac neg ip)
    | @fraction neg ip fp hip hne hcap hfp hlen =>
      have hpos : 1 ≤ fp.length := List.length_pos_iff.2 (fractionState_eq_frac hd)
      exact ⟨neg, ip, fp, rfl, hip, hne, hfp, hpos, hlen, hcap⟩
  · rw [doDecEnd_of_ne hd]
    exact ⟨d, rfl⟩

/-- `DEC.PARSE` accepts only the texts of the grammar, and raises `MalformedValue` on every other (R171, R177). -/
theorem decParseText_meets (t : List Byte) (s : State) :
    (decParseText t s).Meets True (fun _ => ∃ neg ip fp, DecimalParts s.params.decIntMax t neg ip fp)
      s.ValueRefused := by
  have hinit : s.HasRead [] (s.setDec Dec.init) :=
    ⟨_, rfl, .whole (neg := false) (ip := []) (fun _ => nofun) (Nat.zero_le _)⟩
  exact (decRun_reads t hinit).andThen fun u hu => doDecEnd_reads hu

end

/-- Settles O30, by `decParseText_meets`: the parser cannot go on, since the token is no text of the grammar. -/
theorem decimalRejected : Obligations.DecimalRejected := by
  intro s k hp _ hstop hno
  have hrun : doDecParse k s = decParseText (s.bytes (s.alt.tok.get k).start (s.alt.tok.get k).stop) s :=
    State.withToken_present hp hstop
  have hmeets := decParseText_meets (s.bytes (s.alt.tok.get k).start (s.alt.tok.get k).stop) s
  rw [← hrun] at hmeets
  have hrefused : ∃ u, (doDecParse k s).outcome = .next u ∧ s.ValueRefused u :=
    (hmeets.mono id (fun _ ⟨neg, ip, fp, hparts⟩ => absurd hparts (hno neg ip fp)) fun _ => id).next trivial
  obtain ⟨_, hnext, d, rfl⟩ := hrefused
  exact ⟨d, hnext⟩

end Sys2Proof.Machine
end

section
/-! PROOFS for the family of 43_ascii_tokenizer.md, the operations of a line. `A.CHAR` and `A.EOL` by the state one fed and
stored byte leaves (R191, R192, R194), the tokens of `T.SPLIT` as the maximal runs of bytes other than the delimiters
(R201), the identifier, the code and the malformed value of a data line (R200 to R203). -/

namespace Sys2Proof.Machine

/-! ## A byte fed and stored (R191, R194) -/

/-- `CRC` after the feed rule has decided on `b` (R194). -/
def State.fedCrc (s : State) (b : Byte) : Half :=
  if s.len = 0 ∨ s.buf.read 0 ≠ bang then crcByte crcaPoly s.agg.crc b else s.agg.crc

/-- The state after a stream byte with room in the buffer: fed, then stored at `len` (R191). -/
def State.charTaken (s : State) (b : Byte) : State := (s.setCrc (s.fedCrc b)).appended b

theorem feeds_iff {s : State} : feeds s = true ↔ s.len = 0 ∨ s.buf.read 0 ≠ bang := by simp [feeds]

theorem feedByte_eq (b : Byte) (s : State) : feedByte b s = s.setCrc (s.fedCrc b) := by
  unfold feedByte State.fedCrc
  by_cases h : s.len = 0 ∨ s.buf.read 0 ≠ bang
  · rw [if_pos (feeds_iff.2 h), if_pos h]
    rfl
  · rw [if_neg (mt feeds_iff.1 h), if_neg h]
    rfl

theorem bufAppend_feedByte_of_lt {s : State} (b : Byte) (h : s.len < s.params.bufCap) :
    bufAppend b (feedByte b s) = .go (s.charTaken b) := by
  have hroom : bufferFull (s.setCrc (s.fedCrc b)) = false := decide_eq_false (Nat.not_le.2 h)
  rw [feedByte_eq, bufAppend, hroom]
  rfl

theorem State.charTaken_storedByte {s : State} (b : Byte) (hwf : Memory.wf s.buf = true) :
    StoredByte s (s.charTaken b) s.len b :=
  ⟨State.appended_read_len (s := s.setCrc _) b hwf, fun _ => Memory.read_write_other _ _⟩

/-- Settles O33, by `bufAppend_feedByte_of_lt`. -/
theorem charStored : Obligations.CharStored := by
  intro s b hwf hroom _
  exact ⟨s.charTaken b, congrArg Flow.outcome (bufAppend_feedByte_of_lt b hroom), rfl, s.charTaken_storedByte b hwf⟩

/-! ## A completed line (R192, R195, R198, R199) -/

/-- Settles O35: `L.STRIP` looks for the carriage return at `len - 2`, where the line has a byte there. -/
theorem otherAndStrip : Obligations.OtherAndStrip := by
  intro s
  refine ⟨rfl, fun hlen => ?_⟩
  have hcr : (0 < s.len - 1 ∧ s.byteAt (s.len - 1 - 1) = cr) ↔ (2 ≤ s.len ∧ s.buf.read (s.len - 2) = 0x0D) :=
    and_congr_left' (by omega)
  have hstrip : doLStrip s = .go (s.setAlt { s.alt with
      n := if 2 ≤ s.len ∧ s.buf.read (s.len - 2) = 0x0D then s.len - 2 else s.len - 1 }) := by
    rw [doLStrip, if_neg (by omega)]
    simp only [hcr]
    rfl
  exact congrArg Flow.outcome hstrip

theorem hasParen_bytes {s : State} {n : Nat} : hasParen (s.bytes 0 n) = true ↔ ∃ i < n, s.buf.read i = lparen := by
  simp [hasParen, State.mem_bytes]

theorem lineDispatch_of_bang {s : State} (h : s.buf.read 0 = bang) : lineDispatch s = .go (doLCksum s) := if_pos h

theorem lineDispatch_of_ne {s v : State} (h : s.buf.read 0 ≠ bang) (hstrip : doLStrip s = .go v) :
    lineDispatch s = if hasParen (v.bytes 0 v.alt.n) then doLData v else .go (doLOther v) := by
  have hother : s.byteAt 0 ≠ bang := h
  rw [lineDispatch, if_neg hother, hstrip, Flow.go_andThen]

/-- `A.EOL` with room for the terminator: the line is dispatched and the buffer emptied (R192). -/
theorem doAEol_of_lt {s : State} (h : s.len < s.params.bufCap) :
    doAEol s = (lineDispatch (s.charTaken lf)).andThen fun t => .go (t.setLen 0) := by
  rw [doAEol, bufAppend_feedByte_of_lt lf h, Flow.go_andThen]

/-- Where a raise has emptied the buffer, emptying it after the line changes nothing: `A.EOL` leaves the line
operation's state with `len` 0, whether it raised or not (R192, R329). -/
theorem Flow.outcome_emptied {P : Prop} {s : State} {f : Flow} (h : f.Quietly P s) (hP : P) :
    ∃ w, f.outcome = .next w ∧ (f.andThen fun t => .go (t.setLen 0)).outcome = .next (w.setLen 0) := by
  cases f with
  | go w => exact ⟨w, rfl, rfl⟩
  | ended w =>
    have hraised : s.Raised w := h
    obtain ⟨hlen, -⟩ := hraised.aborted
    have hsame : w = w.setLen 0 := by rw [State.setLen, ← hlen]
    exact ⟨w, rfl, congrArg Host.Outcome.next hsame⟩
  | stop r => exact absurd hP h

/-- A completed line is stripped to a part of itself (R199). -/
theorem exists_doLStrip {s : State} (h : 0 < s.len) : ∃ v, doLStrip s = .go v ∧ v.alt.n ≤ v.len := by
  obtain ⟨n, hstrip, -⟩ := doLStrip_strips h
  have hmeets := doLStrip_meets s
  rw [hstrip] at hmeets
  obtain ⟨-, hn⟩ := hmeets
  exact ⟨_, hstrip, hn⟩

/-- Settles O34: `doAEol_of_lt` for the terminator, the line operations by the branches of format L. -/
theorem eolDispatch : Obligations.EolDispatch := by
  intro s hwf hroom
  have heol := congrArg Flow.outcome (doAEol_of_lt hroom)
  refine ⟨s.charTaken lf, rfl, s.charTaken_storedByte lf hwf, fun hbang => ?_, fun hne => ?_⟩
  · rw [lineDispatch_of_bang hbang] at heol
    exact ⟨_, rfl, heol⟩
  · obtain ⟨v, hstrip, hn⟩ := exists_doLStrip (s := s.charTaken lf) (Nat.succ_pos _)
    rw [lineDispatch_of_ne hne hstrip] at heol
    refine ⟨v, congrArg Flow.outcome hstrip, fun hparen => ?_, fun hno => ⟨rfl, ?_⟩⟩
    · rw [if_pos (hasParen_bytes.2 hparen)] at heol
      obtain ⟨w, hw, hempty⟩ := Flow.outcome_emptied (doLData_quietly v) hn
      exact ⟨w, hw, heol.trans hempty⟩
    · rw [if_neg (mt hasParen_bytes.1 fun ⟨i, hi, hread⟩ => hno i hi hread)] at heol
      exact heol

/-! ## The tokens of a line (R201) -/

/-- `ts` are the maximal runs below `n`, from index `i` on, of the indexes outside `D`, in order. -/
inductive RunsFrom (D : Nat → Prop) (n : Nat) : Nat → List Tok → Prop where
  | nil {i : Nat} : (∀ x, i ≤ x → x < n → D x) → RunsFrom D n i []
  | cons {i start stop : Nat} {ts : List Tok} : i ≤ start → (∀ x, i ≤ x → x < start → D x) → start < stop → stop ≤ n →
      (∀ x, start ≤ x → x < stop → ¬ D x) → (stop < n → D stop) → RunsFrom D n stop ts →
      RunsFrom D n i (⟨start, stop, true⟩ :: ts)

section
variable {D : Nat → Prop} {n i : Nat} {ts : List Tok} {t : Tok}

/-- A delimiter before the first run belongs to none. -/
theorem RunsFrom.skip (h : RunsFrom D n (i + 1) ts) (hi : D i) : RunsFrom D n i ts := by
  have hext {m : Nat} (hd : ∀ x, i + 1 ≤ x → x < m → D x) (x : Nat) (hix : i ≤ x) (hx : x < m) : D x := by
    rcases hix.eq_or_lt with rfl | hlt
    · exact hi
    · exact hd x hlt hx
  cases h with
  | nil hd => exact .nil (hext hd)
  | cons hle hd hlt hn hrun hstop hrest => exact .cons (by omega) (hext hd) hlt hn hrun hstop hrest

/-- What R201 says of one token of the line that follows index `i`. -/
structure IsRun (D : Nat → Prop) (n i : Nat) (t : Tok) : Prop where
  from_le : i ≤ t.start
  nonempty : t.start < t.stop
  inside : t.stop ≤ n
  text : ∀ x, t.start ≤ x → x < t.stop → ¬ D x
  closed : t.stop < n → D t.stop
  opened : i < t.start → D (t.start - 1)

/-- A run that follows one ending at `j` begins behind the delimiter at `j`. -/
theorem IsRun.after {j : Nat} (h : IsRun D n j t) (hj : j < n → D j) : j < t.start := by
  have hstart : ¬ D t.start := h.text t.start le_rfl h.nonempty
  have hn : t.start < n := h.nonempty.trans_le h.inside
  rcases h.from_le.eq_or_lt with heq | hlt
  · exact absurd (heq ▸ hj (heq ▸ hn)) hstart
  · exact hlt

theorem RunsFrom.isRun (h : RunsFrom D n i ts) (ht : t ∈ ts) : IsRun D n i t := by
  induction h with
  | nil _ => cases ht
  | cons hle hd hlt hn hrun hstop _ ih =>
    obtain rfl | ht := List.mem_cons.1 ht
    · exact ⟨hle, hlt, hn, hrun, hstop, fun h => hd _ (Nat.le_sub_one_of_lt h) (Nat.sub_one_lt_of_lt h)⟩
    · have hrest := ih ht
      have hbehind := hrest.after hstop
      exact ⟨by omega, hrest.nonempty, hrest.inside, hrest.text, hrest.closed, fun _ => hrest.opened hbehind⟩

/-- The runs ascend, a delimiter between each two. -/
theorem RunsFrom.pairwise (h : RunsFrom D n i ts) : ts.Pairwise fun t u => t.stop < u.start := by
  induction h with
  | nil _ => exact .nil
  | cons _ _ _ _ _ hstop hrest ih => exact .cons (fun u hu => (hrest.isRun hu).after hstop) ih

/-- Every index outside `D` lies in a run. -/
theorem RunsFrom.covers (h : RunsFrom D n i ts) {x : Nat} (hi : i ≤ x) (hx : x < n) (hD : ¬ D x) :
    ∃ t ∈ ts, t.start ≤ x ∧ x < t.stop := by
  induction h with
  | nil hd => exact absurd (hd x hi hx) hD
  | @cons i start stop ts _ hd _ _ _ _ _ ih =>
    rcases Nat.lt_or_ge x start with hbefore | hstart
    · exact absurd (hd x hi hbefore) hD
    · rcases Nat.lt_or_ge x stop with hin | hafter
      · exact ⟨_, List.mem_cons_self, hstart, hin⟩
      · obtain ⟨t, ht, hbounds⟩ := ih hafter
        exact ⟨t, List.mem_cons_of_mem _ ht, hbounds⟩

end

/-- The byte of `s` at an index is a delimiter. -/
def State.DelimAt (s : State) (i : Nat) : Prop := s.buf.read i ∈ ([0x28, 0x29, 0x2A, 0x3A] : List Byte)

/-- What `T.SPLIT` collects from index `i` on are the runs from there, where a token began at `st` the one in progress
among them. -/
theorem tokenRuns_runsFrom (s : State) {bs : List Byte} {i n : Nat} (hbs : bs = s.bytes i n) (hi : i ≤ n) :
    RunsFrom s.DelimAt n i (tokenRuns bs i none) ∧
    ∀ st < i, (∀ x, st ≤ x → x < i → ¬ s.DelimAt x) → RunsFrom s.DelimAt n st (tokenRuns bs i (some st)) := by
  induction bs generalizing i with
  | nil =>
    have hend : i = n := by
      have hlen := congrArg List.length hbs
      rw [State.bytes_length, List.length_nil] at hlen
      omega
    subst hend
    refine ⟨.nil fun x hx hn => by omega, fun st hst hrun => ?_⟩
    exact .cons le_rfl (fun x hx hn => by omega) hst le_rfl hrun (fun h => by omega) (.nil fun x hx hn => by omega)
  | cons b bs ih =>
    obtain ⟨hlt, rfl, hrest⟩ := State.bytes_eq_cons hbs.symm
    obtain ⟨hnone, hsome⟩ := ih hrest hlt
    unfold tokenRuns
    by_cases hd : s.DelimAt i
    · have hskip := hnone.skip hd
      simp only [isDelim_iff.2 hd, if_true]
      refine ⟨hskip, fun st hst hrun => ?_⟩
      exact .cons le_rfl (fun x hx hn => by omega) hst hi hrun (fun _ => hd) hskip
    · have hgrow {st : Nat} (hrun : ∀ x, st ≤ x → x < i → ¬ s.DelimAt x) (x : Nat) (hst : st ≤ x) (hx : x < i + 1) :
          ¬ s.DelimAt x := by
        rcases Nat.lt_succ_iff_lt_or_eq.1 hx with hlt | rfl
        · exact hrun x hst hlt
        · exact hd
      simp only [eq_false_of_ne_true (mt isDelim_iff.1 hd), Bool.false_eq_true, if_false]
      refine ⟨hsome i (Nat.lt_succ_self i) (hgrow fun x hx hn => by omega), fun st hst hrun => ?_⟩
      exact hsome st (hst.trans (Nat.lt_succ_self i)) (hgrow hrun)

theorem splitTokens_of_lt {old : Vector Tok 4} {line : List Byte} {k : Fin 4}
    (h : k.val < (tokenRuns line 0 none).length) :
    (splitTokens old line).get k = (tokenRuns line 0 none)[k.val] := by
  rw [splitTokens_get, List.getD_eq_getElem _ _ h]

/-- The registers present are those for which the line has a token (R201). -/
theorem splitTokens_present_iff {old : Vector Tok 4} {line : List Byte} {k : Fin 4} :
    ((splitTokens old line).get k).present = true ↔ k.val < (tokenRuns line 0 none).length := by
  rcases Nat.lt_or_ge k.val (tokenRuns line 0 none).length with hk | hk
  · rw [splitTokens_of_lt hk]
    exact iff_of_true (present_of_mem_tokenRuns (List.getElem_mem hk)) hk
  · rw [splitTokens_get, List.getD_eq_default _ _ hk]
    exact iff_of_false Bool.false_ne_true (Nat.not_lt.2 hk)

/-- Settles O37: the tokens are runs by `tokenRuns_runsFrom`, and the registers hold the first four. -/
theorem tokensAreRuns : Obligations.TokensAreRuns := by
  intro s hn
  obtain ⟨hruns, -⟩ := tokenRuns_runsFrom s (bs := s.bytes 0 s.alt.n) rfl (Nat.zero_le _)
  have hasc := List.pairwise_iff_getElem.1 hruns.pairwise
  refine ⟨_, congrArg Flow.outcome (State.withBytes_of_le hn), rfl, fun k hp => ?_, fun j k hjk hp => ?_,
    fun i hi hdelim => ?_⟩
  · have hk := splitTokens_present_iff.1 hp
    have hrun := hruns.isRun (List.getElem_mem hk)
    simp only [State.setAlt_alt, splitTokens_of_lt hk]
    exact ⟨hrun.nonempty, hrun.inside, hrun.text, hrun.closed, hrun.opened⟩
  · have hk := splitTokens_present_iff.1 hp
    have hj : j.val < (tokenRuns (s.bytes 0 s.alt.n) 0 none).length := Nat.lt_trans hjk hk
    refine ⟨splitTokens_present_iff.2 hj, ?_⟩
    simp only [State.setAlt_alt, splitTokens_of_lt hk, splitTokens_of_lt hj]
    exact hasc j.val k.val hj hk hjk
  · obtain ⟨t, ht, hstart, hstop⟩ := hruns.covers (Nat.zero_le i) hi hdelim
    obtain ⟨m, hm, rfl⟩ := List.mem_iff_getElem.1 ht
    rcases Nat.lt_or_ge m 4 with hm4 | hm4
    · refine .inl ⟨⟨m, hm4⟩, (splitTokens_present_iff (k := ⟨m, hm4⟩)).2 hm, ?_⟩
      simp only [State.setAlt_alt, splitTokens_of_lt (k := ⟨m, hm4⟩) hm]
      exact ⟨hstart, hstop⟩
    · have h3 : (3 : Fin 4).val < (tokenRuns (s.bytes 0 s.alt.n) 0 none).length := Nat.lt_trans hm4 hm
      refine .inr ⟨splitTokens_present_iff.2 h3, ?_⟩
      simp only [State.setAlt_alt, splitTokens_of_lt h3]
      exact ((hasc 3 m h3 hm hm4).trans_le hstart).le

/-! ## The operations on a token (R202, R203) -/

/-- A text begins with three given bytes where the buffer holds them and the text is long enough. -/
theorem bytes_begin_iff {s : State} {a b : Nat} {p0 p1 p2 : Byte} :
    [p0, p1, p2] <+: s.bytes a b ↔
      a + 3 ≤ b ∧ s.buf.read a = p0 ∧ s.buf.read (a + 1) = p1 ∧ s.buf.read (a + 2) = p2 := by
  rcases Nat.lt_or_ge b (a + 3) with hlt | hge
  · refine iff_of_false (fun h => ?_) fun h => by omega
    have hlen := h.length_le
    rw [State.bytes_length, List.length_cons, List.length_cons, List.length_singleton] at hlen
    omega
  · rw [State.bytes_cons (by omega), State.bytes_cons (by omega), State.bytes_cons (by omega)]
    simp only [List.cons_prefix_cons, List.nil_prefix, and_true, hge, true_and, eq_comm, Nat.add_assoc, Nat.reduceAdd]

/-- Settles O38, by `bytes_begin_iff`. -/
theorem idMatched : Obligations.IdMatched := by
  intro s k p0 p1 p2 hid hp hstop st
  have hmatch : dataIdMatches s.params.dataId (s.bytes st (s.alt.tok.get k).stop) =
      decide (st + 3 ≤ (s.alt.tok.get k).stop ∧
        s.buf.read st = p0 ∧ s.buf.read (st + 1) = p1 ∧ s.buf.read (st + 2) = p2) := by
    rw [Bool.eq_iff_iff, dataIdMatches_iff, hid, bytes_begin_iff, decide_eq_true_iff]
  rw [exec_idMatch_present hp hstop, hmatch]

/-- Settles O39: a text of R203's grammar is a `CodeText`, and any other is none. -/
theorem keyParsed : Obligations.KeyParsed := by
  intro s k hp hstop text
  have htok : s.HasToken k text := ⟨hp, hstop, rfl⟩
  refine ⟨fun g0 g1 g2 htext h0 h1 h2 => ?_, fun hno => ?_⟩
  · exact congrArg Flow.outcome (doKeyParse_of_code htok ⟨g0, g1, g2, htext, h0, h1, h2, rfl⟩)
  · refine congrArg Flow.outcome (doKeyParse_of_ill_formed htok fun key => ?_)
    rintro ⟨g0, g1, g2, htext, h0, h1, h2, -⟩
    exact hno g0 g1 g2 htext ⟨h0, h1, h2⟩

/-! ## A malformed value (R200, R327) -/

section
variable {s : State} {ident code value : List Byte} {key : Key} {slot : Fin 28}

theorem doDecParse_of_malformed {k : Fin 4} (h : s.HasToken k value)
    (hval : ∀ neg ip fp, ¬ DecimalParts s.params.decIntMax value neg ip fp) :
    ∃ d, doDecParse k s = .ended ((s.setDec d).afterAbort .malformedValue) := by
  have hmeets := decParseText_meets value s
  rw [doDecParse, h.withToken]
  cases hrun : decParseText value s with
  | go t =>
    rw [hrun] at hmeets
    obtain ⟨neg, ip, fp, hparts⟩ := hmeets
    exact absurd hparts (hval neg ip fp)
  | ended t =>
    rw [hrun] at hmeets
    obtain ⟨d, rfl⟩ := hmeets
    exact ⟨d, rfl⟩
  | stop r =>
    rw [hrun] at hmeets
    exact absurd trivial hmeets

theorem lDataKey_of_malformed (hkey : s.alt.keyValid = true)
    (hslot : romSlotOf s.params.romExtra s.alt.key = some slot) (h2 : s.HasToken 2 value)
    (hval : ∀ neg ip fp, ¬ DecimalParts s.params.decIntMax value neg ip fp) :
    ∃ d l, lDataKey s = .ended (({ s with dec := d, latch := l } : State).afterAbort .malformedValue) := by
  have hhit : (romDrive slot s).latch.romHit = true := rfl
  have h2' : (romDrive slot s).HasToken 2 value := h2.of_same rfl rfl rfl
  obtain ⟨d, hraise⟩ := doDecParse_of_malformed h2' hval
  refine ⟨d, { s.latch with romHit := true, romSlot := slot }, ?_⟩
  rw [lDataKey, if_pos hkey, doRomLkp_of_slot hslot, lDataValue, if_pos hhit, hraise]
  rfl

theorem lDataTokens_of_malformed (hmatch : s.alt.idMatch = true) (h1 : s.HasToken 1 code) (hcode : CodeText code key)
    (hslot : romSlotOf s.params.romExtra key = some slot) (h2 : s.HasToken 2 value)
    (hval : ∀ neg ip fp, ¬ DecimalParts s.params.decIntMax value neg ip fp) :
    ∃ a d l, lDataTokens s =
      .ended (({ s with alt := a, dec := d, latch := l } : State).afterAbort .malformedValue) := by
  have hthree : (s.alt.idMatch && (s.alt.tok.get 1).present && (s.alt.tok.get 2).present) = true := by
    rw [hmatch, h1.1, h2.1]
    rfl
  obtain ⟨d, l, hraise⟩ := lDataKey_of_malformed (s := s.setAlt { s.alt with key := key, keyValid := true }) rfl hslot
    (h2.of_same rfl rfl rfl) hval
  refine ⟨{ s.alt with key := key, keyValid := true }, d, l, ?_⟩
  rw [lDataTokens, if_pos hthree, doKeyParse_of_code h1 hcode, Flow.go_andThen, hraise]
  rfl

end

/-- Settles O42, by `lDataTokens_of_malformed` after the split of the line. -/
theorem dataLineMalformed : Obligations.DataLineMalformed := by
  intro s ident code value more key slot hn hline hid hcode hslot hval
  obtain ⟨u, hrun, hu, hmatch, htok, -⟩ := doLData_of_ident hn hline
  rw [dataIdMatches_iff.2 hid] at hmatch
  have hparams : u.params = s.params := by rw [hu]; rfl
  obtain ⟨a, d, l, hraise⟩ := lDataTokens_of_malformed hmatch (htok 1 code rfl) hcode (slot := slot)
    (by rw [hparams]; exact hslot) (htok 2 value rfl) (by rw [hparams]; exact hval)
  refine ⟨a, d, l, Flow.outcome_eq_next.2 (.inr ?_)⟩
  rw [hrun, hraise, hu]
  rfl

end Sys2Proof.Machine
end

section
/-! PROOFS for the family of 43_ascii_tokenizer.md, the intake loops. Both are instances of `intake`: on an idle source
it is cut anywhere (R206, R227, R305) and ends at an empty queue (R298); over bytes without a terminator the ASCII loop is
a run of `State.charTaken` (R191, R194, R206). -/

namespace Sys2Proof.Machine

/-! ## The loop on an idle source (R206, R227) -/

section
variable {byte : Byte → State → Flow} {done : State → Bool} {dry : State → State} {s : State}

theorem arriveNext_of_idle (h : s.env.arrivals = []) : arriveNext s = s := by rw [arriveNext, h]

theorem intake_empty (j : Nat) (harr : s.env.arrivals = []) (hq : s.env.queue = []) :
    intake byte done dry (j + 1) s = .go (dry s) := by
  rw [intake, arriveNext_of_idle harr, hq]

theorem intake_cons (j : Nat) (harr : s.env.arrivals = []) {b : Byte} {q : List Byte} (hq : s.env.queue = b :: q) :
    intake byte done dry (j + 1) s =
      (byte b (s.setQueue q)).andThen fun t => if done t then .go t else intake byte done dry j t := by
  rw [intake, arriveNext_of_idle harr, hq]

/-- An empty queue that changes nothing ends the loop at once, whatever the budget. -/
theorem intake_dry (j : Nat) (harr : s.env.arrivals = []) (hq : s.env.queue = []) (hdry : dry s = s) :
    intake byte done dry j s = .go s := by
  cases j with
  | zero => rfl
  | succ j => rw [intake_empty j harr hq, hdry]

/-- Cutting the loop. `I` holds where it may go on: nothing is scheduled to arrive, the mandatory stop is not reached,
and an empty queue changes nothing. -/
theorem intake_add {I : State → Prop} (hidle : ∀ s, I s → s.env.arrivals = [] ∧ done s = false ∧ dry s = s)
    (hbyte : ∀ b q s, I s → (byte b (s.setQueue q)).Post (fun t => done t = false → I t) fun _ => True)
    (j1 j2 : Nat) (h : I s) :
    intake byte done dry (j1 + j2) s =
      (intake byte done dry j1 s).andThen fun t => if done t then .go t else intake byte done dry j2 t := by
  induction j1 generalizing s with
  | zero =>
    obtain ⟨-, hdone, -⟩ := hidle s h
    rw [Nat.zero_add, intake, Flow.go_andThen, hdone, if_neg Bool.false_ne_true]
  | succ j1 ih =>
    obtain ⟨harr, hdone, hdry⟩ := hidle s h
    rw [Nat.succ_add]
    cases hq : s.env.queue with
    | nil =>
      rw [intake_empty _ harr hq, intake_empty _ harr hq, hdry, Flow.go_andThen, hdone, if_neg Bool.false_ne_true,
        intake_dry j2 harr hq hdry]
    | cons b q =>
      have hpost := hbyte b q s h
      rw [intake_cons _ harr hq, intake_cons _ harr hq, Flow.andThen_assoc]
      cases hrun : byte b (s.setQueue q) with
      | ended t => rfl
      | stop r => rfl
      | go t =>
        rw [hrun] at hpost
        simp only [Flow.go_andThen]
        cases hd : done t with
        | true => simp only [if_true, Flow.go_andThen, hd]
        | false =>
          simp only [Bool.false_eq_true, if_false]
          exact ih (hpost hd)

end

theorem Flow.Post.mono {G G' E E' : State → Prop} {f : Flow} (h : f.Post G E) (hG : ∀ t, G t → G' t)
    (hE : ∀ t, E t → E' t) : f.Post G' E' := by
  cases f with
  | go t => exact hG t h
  | ended t => exact hE t h
  | stop r => trivial

/-- Taking a byte leaves the environment alone (R106). -/
theorem hdlcByte_env (b : Byte) (s : State) : (hdlcByte b s).Post (fun t => t.env = s.env) fun _ => True := by
  unfold hdlcByte
  split
  next => rfl
  next => rfl
  next => exact ((doHData_meets b s).mono id (fun t ⟨_, ht⟩ => by rw [ht]; rfl) fun _ _ => trivial).post
  next => exact ((doHClose_meets s).mono id (fun t ⟨_, ht⟩ => by rw [ht]; rfl) fun _ _ => trivial).post
  next => trivial
  next => trivial

theorem asciiByte_arrivals (b : Byte) (s : State) :
    (asciiByte b s).Post (fun t => t.env.arrivals = s.env.arrivals) fun _ => True := by
  refine ((asciiByte_meets b s).mono id (fun t ht => ?_) fun _ _ => trivial).post
  obtain ⟨-, -, -, harr, -⟩ := ht.evolves.takes
  rwa [List.drop_zero] at harr

theorem hdlcDry_of_no_timeout {s : State} (h : s.env.timeout = false) : hdlcDry s = s :=
  if_neg fun ⟨_, ht⟩ => absurd (h.symm.trans ht) Bool.false_ne_true

/-- Settles O18: both loops by `intake_add`. -/
theorem cutInvariance : Obligations.CutInvariance := by
  refine ⟨fun j1 j2 s hc harr => ?_, fun j1 j2 s hh harr htmo => ?_⟩
  · have hcut := intake_add (byte := asciiByte) (done := fun t => t.agg.complete) (dry := id)
      (I := fun t => t.env.arrivals = [] ∧ t.agg.complete = false) (fun t ⟨ha, hd⟩ => ⟨ha, hd, rfl⟩)
      (fun b q t ⟨ha, _⟩ => (asciiByte_arrivals b (t.setQueue q)).mono (fun u hu hd => ⟨hu.trans ha, hd⟩) fun _ => id)
      j1 j2 ⟨harr, hc⟩
    simp only [parseAscii_eq_intake]
    exact hcut
  · have hcut := intake_add (byte := hdlcByte) (done := fun t => decide (t.hstate = .foundFrame)) (dry := hdlcDry)
      (I := fun t => t.env.arrivals = [] ∧ t.env.timeout = false ∧ t.hstate ≠ .foundFrame)
      (fun t ⟨ha, ht, hd⟩ => ⟨ha, decide_eq_false hd, hdlcDry_of_no_timeout ht⟩)
      (fun b q t ⟨ha, ht, _⟩ => (hdlcByte_env b (t.setQueue q)).mono
        (fun u hu hd => ⟨by rw [hu]; exact ha, by rw [hu]; exact ht, of_decide_eq_false hd⟩) fun _ => id)
      j1 j2 ⟨harr, htmo, hh⟩
    simp only [decide_eq_true_eq] at hcut
    simp only [parseHdlc_eq_intake]
    exact hcut

/-- The HDLC intake of an empty queue is the end of the loop alone: a draw is at least 1 (R298, R299). -/
theorem doFParseH_dry {s : State} (hq : s.env.queue = []) (harr : s.env.arrivals = []) (hh : s.hstate ≠ .foundFrame) :
    doFParseH s = .go (hdlcDry s) := by
  obtain ⟨j, hj⟩ := Nat.exists_eq_add_of_le' s.env.budget.property
  rw [doFParseH, if_neg hh, parseHdlc_eq_intake, hj, intake_empty j harr hq]

/-- Settles O19: the ASCII loop by `intake_dry`, the HDLC one by `doFParseH_dry` and what `hdlcDry` does. -/
theorem dryQueue : Obligations.DryQueue := by
  intro s hq harr
  have hdry := doFParseH_dry hq harr
  refine ⟨?_, fun hh => ?_, fun hh htmo => ?_, fun hh htmo => ?_⟩
  · have hrun : doFParseA s = .go s := by rw [doFParseA, parseAscii_eq_intake, intake_dry _ harr hq rfl]
    exact congrArg Flow.outcome hrun
  · have hrest : hdlcDry s = s := if_neg fun ⟨h, _⟩ => by rw [hh] at h; cases h
    rw [hrest] at hdry
    exact congrArg Flow.outcome (hdry (by rw [hh]; decide))
  · rw [hdlcDry_of_no_timeout htmo] at hdry
    exact congrArg Flow.outcome (hdry (by rw [hh]; decide))
  · have htimeout : hdlcDry s = doHTmo s := if_pos ⟨hh, htmo⟩
    rw [htimeout] at hdry
    exact congrArg Flow.outcome (hdry (by rw [hh]; decide))

/-! ## A partial line (R191, R194, R206) -/

/-- What the feed rule lets through of `bs`, bytes of the line in progress (R194). -/
def State.lineFed (s : State) (bs : List Byte) : List Byte :=
  if s.len = 0 then (if bs.head? = some bang then [bang] else bs) else if s.buf.read 0 = bang then [] else bs

/-- The state after `bs` of the queue, `rest` left in it, as bytes of the line in progress. -/
def State.lineTaken (s : State) (bs rest : List Byte) : State :=
  { s with buf := s.buf.writeRun s.len bs, len := s.len + bs.length,
           agg := { s.agg with crc := crcBytes crcaPoly s.agg.crc (s.lineFed bs) },
           env := { s.env with queue := rest } }

theorem State.lineFed_nil (s : State) : s.lineFed [] = [] := by simp [State.lineFed]

/-- Within a line the feed rule looks at the stored first byte alone. -/
theorem State.lineFed_charTaken {s : State} (b : Byte) (bs : List Byte) (hwf : Memory.wf s.buf = true) :
    (s.charTaken b).lineFed bs = if (if s.len = 0 then b else s.buf.read 0) = bang then [] else bs := by
  obtain ⟨hsame, hother⟩ := s.charTaken_storedByte b hwf
  have hlen : (s.charTaken b).len ≠ 0 := Nat.succ_ne_zero s.len
  rw [State.lineFed, if_neg hlen]
  by_cases h0 : s.len = 0
  · rw [h0] at hsame
    rw [if_pos h0, hsame]
  · rw [if_neg h0, hother 0 (Ne.symm h0)]

/-- Feeding one byte and then the rest of the line is feeding the line (R194). -/
theorem State.crcBytes_lineFed_cons {s : State} (b : Byte) (bs : List Byte) (hwf : Memory.wf s.buf = true) :
    crcBytes crcaPoly (s.fedCrc b) ((s.charTaken b).lineFed bs) = crcBytes crcaPoly s.agg.crc (s.lineFed (b :: bs)) := by
  rw [State.lineFed_charTaken b bs hwf, State.lineFed, State.fedCrc]
  simp only [List.head?_cons, Option.some_inj]
  by_cases h0 : s.len = 0
  · rw [if_pos h0, if_pos h0, if_pos (.inl h0)]
    by_cases hb : b = bang
    · rw [if_pos hb, if_pos hb, hb]
      rfl
    · rw [if_neg hb, if_neg hb]
      rfl
  · rw [if_neg h0, if_neg h0]
    by_cases hb : s.buf.read 0 = bang
    · rw [if_pos hb, if_pos hb, if_neg (not_or_intro h0 (not_not_intro hb))]
    · rw [if_neg hb, if_neg hb, if_pos (.inr hb)]
      rfl

theorem State.lineTaken_cons {s : State} (b : Byte) (q bs rest : List Byte) (hwf : Memory.wf s.buf = true) :
    ((s.setQueue q).charTaken b).lineTaken bs rest = s.lineTaken (b :: bs) rest := by
  have hcrc : crcBytes crcaPoly (s.fedCrc b) (((s.setQueue q).charTaken b).lineFed bs) =
      crcBytes crcaPoly s.agg.crc (s.lineFed (b :: bs)) := State.crcBytes_lineFed_cons (s := s.setQueue q) b bs hwf
  have hlen : s.len + 1 + bs.length = s.len + (b :: bs).length := by rw [List.length_cons]; omega
  unfold State.lineTaken
  rw [← hlen, ← hcrc]
  rfl

/-- A byte other than the terminator, with room in the buffer, is fed and stored (R103, R191). -/
theorem asciiByte_of_char {s : State} {b : Byte} (hb : b ≠ lf) (h : s.len < s.params.bufCap) :
    asciiByte b s = .go (s.charTaken b) := by
  have hsel : asciiSel (bufferFull s) b = .char := by
    rw [bufferFull, decide_eq_false (Nat.not_le.2 h), asciiSel, if_neg Bool.false_ne_true, if_neg hb]
  rw [asciiByte, hsel]
  exact bufAppend_feedByte_of_lt b h

/-- The ASCII loop takes the bytes of a partial line one by one, up to its budget or the end of the queue. -/
theorem parseAscii_line {bs rest : List Byte} (hbs : ∀ b ∈ bs, b ≠ lf) {j : Nat} {s : State}
    (hwf : Memory.wf s.buf = true) (hc : s.agg.complete = false) (hq : s.env.queue = bs ++ rest)
    (harr : s.env.arrivals = []) (hj : j = bs.length ∨ (rest = [] ∧ bs.length ≤ j))
    (hroom : s.len + bs.length ≤ s.params.bufCap) : parseAscii j s = .go (s.lineTaken bs rest) := by
  induction bs generalizing j s with
  | nil =>
    have hnone : s.lineTaken [] rest = s := by
      rw [State.lineTaken, State.lineFed_nil, ← List.nil_append rest, ← hq]
      rfl
    rw [hnone]
    obtain rfl | ⟨rfl, -⟩ := hj
    · rfl
    · rw [parseAscii_eq_intake, intake_dry j harr hq rfl]
  | cons b bs ih =>
    obtain ⟨hb, hbs⟩ := List.forall_mem_cons.1 hbs
    rw [List.cons_append] at hq
    rw [List.length_cons] at hj hroom
    obtain ⟨i, rfl⟩ : ∃ i, j = i + 1 := ⟨j - 1, by omega⟩
    have hroom' : (s.setQueue (bs ++ rest)).len < (s.setQueue (bs ++ rest)).params.bufCap := by
      change s.len < s.params.bufCap
      omega
    have hstep := ih hbs (j := i) (s := (s.setQueue (bs ++ rest)).charTaken b) (Memory.wf_write _ _ hwf) hc rfl harr
      (hj.imp Nat.succ.inj fun ⟨h, hle⟩ => ⟨h, Nat.le_of_succ_le_succ hle⟩)
      (show s.len + 1 + bs.length ≤ s.params.bufCap by omega)
    have hgo : ((s.setQueue (bs ++ rest)).charTaken b).agg.complete = false := hc
    rw [parseAscii_eq_intake] at hstep ⊢
    rw [intake_cons i harr hq, asciiByte_of_char hb hroom', Flow.go_andThen]
    simp only [hgo, Bool.false_eq_true, if_false]
    rw [hstep, State.lineTaken_cons b _ bs rest hwf]

/-- The bytes of a run of writes read back (R76). -/
theorem Memory.read_writeRun_same {m : Memory} (h : Memory.wf m = true) (a : Nat) (bs : List Byte) {i : Nat}
    (hi : i < bs.length) : (m.writeRun a bs).read (a + i) = bs[i] := by
  induction bs generalizing m a i with
  | nil => exact absurd hi (Nat.not_lt_zero i)
  | cons b bs ih =>
    rw [Memory.writeRun]
    cases i with
    | zero =>
      exact (Memory.read_writeRun_other _ _ (.inl (Nat.lt_succ_self a))).trans (Memory.read_write_same h a b)
    | succ i =>
      rw [← Nat.add_assoc, Nat.add_right_comm]
      exact ih (Memory.wf_write a b h) (a + 1) (Nat.lt_of_succ_lt_succ hi)

/-- Settles O16, by `parseAscii_line`. -/
theorem partialLineIntake : Obligations.PartialLineIntake := by
  intro s bs rest hwf hc hq harr hj hbs hroom fed
  have hrun := parseAscii_line hbs hwf hc hq harr hj hroom
  exact ⟨s.lineTaken bs rest, congrArg Flow.outcome hrun, rfl,
    fun i hi => Memory.read_writeRun_same hwf s.len bs hi, fun a ha => Memory.read_writeRun_other s.buf bs ha⟩

end Sys2Proof.Machine
end

section
/-! PROOFS for the family of 44_hdlc_framer.md, the framer. The bytes it stores (R222 to R224), a whole frame as one run
of writes (R298), the registers and the required tags (R234, R235, R252), and the validation of a frame up to the
array's count (R228 to R231). -/

namespace Sys2Proof.Machine

/-! ## A byte stored (R222 to R224) -/

theorem bufAppend_of_lt {s : State} (b : Byte) (h : s.len < s.params.bufCap) : bufAppend b s = .go (s.appended b) := by
  obtain ⟨-, hgo⟩ | ⟨hfull, -⟩ := bufAppend_cases b s
  · exact hgo
  · exact absurd h (Nat.not_lt.2 hfull)

theorem doHClose_of_lt {s : State} (h : s.len < s.params.bufCap) :
    doHClose s = .go ((s.appended flagByte).setHState .foundFrame) := by
  rw [doHClose, bufAppend_of_lt flagByte h, Flow.go_andThen]

theorem storedByte_of_buf_eq {s t : State} {a : Nat} (b : Byte) (hwf : Memory.wf s.buf = true)
    (hbuf : t.buf = s.buf.write a b) : StoredByte s t a b := by
  refine ⟨?_, fun i hi => ?_⟩
  · rw [hbuf, Memory.read_write_same hwf]
  · rw [hbuf, Memory.read_write_other _ _ hi]

/-- Settles O45: an append goes on with the byte at `len`, and `H.OPEN` stores at index 0. -/
theorem framerStores : Obligations.FramerStores := by
  intro s hwf
  refine ⟨⟨doHOpen s, rfl, rfl, storedByte_of_buf_eq _ hwf rfl⟩, fun hroom => ⟨fun b _ => ?_, ?_⟩⟩
  · exact ⟨s.appended b, congrArg Flow.outcome (bufAppend_of_lt b hroom), rfl, storedByte_of_buf_eq b hwf rfl⟩
  · exact ⟨_, congrArg Flow.outcome (doHClose_of_lt hroom), rfl, storedByte_of_buf_eq _ hwf rfl⟩

/-! ## A whole frame (R222 to R224, R298) -/

/-- The state after `bs` of the queue, `rest` left in it, as the last bytes of the frame in progress. -/
def State.frameTaken (s : State) (bs rest : List Byte) : State :=
  { s with buf := s.buf.writeRun s.len bs, len := s.len + bs.length, hstate := .foundFrame,
           env := { s.env with queue := rest } }

/-- Storing one byte of the frame and then the others is storing them all. -/
theorem State.frameTaken_cons (s : State) (b : Byte) (q bs rest : List Byte) :
    ((s.setQueue q).appended b).frameTaken bs rest = s.frameTaken (b :: bs) rest := by
  have hlen : s.len + 1 + bs.length = s.len + (b :: bs).length := by rw [List.length_cons]; omega
  unfold State.frameTaken
  rw [← hlen]
  rfl

theorem bufferFull_of_lt {s : State} (h : s.len < s.params.bufCap) : bufferFull s = false :=
  decide_eq_false (Nat.not_le.2 h)

theorem hdlcByte_open {s : State} (hh : s.hstate = .outsideFrame) : hdlcByte flagByte s = .go (doHOpen s) := by
  rw [hdlcByte, hh, hdlcSel, if_pos rfl]

theorem hdlcByte_data {s : State} {b : Byte} (hh : s.hstate = .readingFrame) (h : s.len < s.params.bufCap)
    (hb : b ≠ flagByte) : hdlcByte b s = .go (s.appended b) := by
  have hsel : hdlcSel s.hstate (bufferFull s) b = .data := by rw [hh, bufferFull_of_lt h]; exact if_neg hb
  rw [hdlcByte, hsel]
  exact bufAppend_of_lt b h

theorem hdlcByte_close {s : State} (hh : s.hstate = .readingFrame) (h : s.len < s.params.bufCap) :
    hdlcByte flagByte s = .go ((s.appended flagByte).setHState .foundFrame) := by
  have hsel : hdlcSel s.hstate (bufferFull s) flagByte = .closeFrame := by rw [hh, bufferFull_of_lt h]; rfl
  rw [hdlcByte, hsel]
  exact doHClose_of_lt h

/-- One round of the HDLC loop on an idle source (R298). -/
theorem parseHdlc_cons {j : Nat} {s t : State} {b : Byte} {q : List Byte} (harr : s.env.arrivals = [])
    (hq : s.env.queue = b :: q) (hbyte : hdlcByte b (s.setQueue q) = .go t) :
    parseHdlc (j + 1) s = if t.hstate = .foundFrame then .go t else parseHdlc j t := by
  rw [parseHdlc_eq_intake, parseHdlc_eq_intake, intake_cons j harr hq, hbyte, Flow.go_andThen]
  simp only [decide_eq_true_eq]

/-- The HDLC loop in an open frame takes its bytes one by one and stops behind the closing flag. -/
theorem parseHdlc_frame {body rest : List Byte} (hbody : ∀ b ∈ body, b ≠ flagByte) {j : Nat} {s : State}
    (hh : s.hstate = .readingFrame) (hq : s.env.queue = body ++ flagByte :: rest) (harr : s.env.arrivals = [])
    (hj : body.length ≤ j) (hroom : s.len + body.length < s.params.bufCap) :
    parseHdlc (j + 1) s = .go (s.frameTaken (body ++ [flagByte]) rest) := by
  induction body generalizing j s with
  | nil => rw [parseHdlc_cons harr hq (hdlcByte_close hh hroom)]; rfl
  | cons b body ih =>
    obtain ⟨hb, hbody⟩ := List.forall_mem_cons.1 hbody
    rw [List.cons_append] at hq
    rw [List.length_cons] at hj hroom
    obtain ⟨i, rfl⟩ := Nat.exists_eq_add_of_le' (Nat.one_le_of_lt hj)
    have hreading : ((s.setQueue (body ++ flagByte :: rest)).appended b).hstate ≠ .foundFrame := by
      change s.hstate ≠ .foundFrame
      rw [hh]
      decide
    rw [parseHdlc_cons harr hq (hdlcByte_data hh (Nat.lt_of_le_of_lt (Nat.le_add_right _ _) hroom) hb),
      if_neg hreading, List.cons_append, ← State.frameTaken_cons]
    exact ih hbody hh rfl harr (Nat.le_of_succ_le_succ hj) (show s.len + 1 + body.length < s.params.bufCap by omega)

/-- Settles O17: `H.OPEN`, then `parseHdlc_frame`; the buffer is one run of writes of the frame from index 0. -/
theorem frameIntake : Obligations.FrameIntake := by
  intro s body rest hwf hh hq harr hj hbody hroom
  let frame := flagByte :: (body ++ [flagByte])
  have hlen : 1 + (body ++ [flagByte]).length = body.length + 2 := by rw [List.length_append]; exact Nat.add_comm _ _
  have hrun : doFParseH s =
      .go ((doHOpen (s.setQueue (body ++ flagByte :: rest))).frameTaken (body ++ [flagByte]) rest) := by
    obtain ⟨j, hbudget⟩ := Nat.exists_eq_add_of_le' (le_of_add_le_right hj)
    have hne : s.hstate ≠ .foundFrame := by rw [hh]; decide
    rw [hbudget] at hj
    rw [doFParseH, if_neg hne, hbudget, parseHdlc_cons harr hq (hdlcByte_open hh)]
    exact parseHdlc_frame hbody rfl rfl harr (Nat.le_of_add_le_add_right hj)
      (show 1 + body.length < s.params.bufCap by omega)
  have hread (i : Nat) (hi : i < frame.length) : (s.buf.writeRun 0 frame).read i = frame[i] := by
    simpa only [Nat.zero_add] using Memory.read_writeRun_same hwf 0 frame hi
  refine ⟨_, congrArg Flow.outcome hrun, ?_, hread 0 ?_, ?_, fun i hi => ?_, fun a ha => ?_⟩
  · rw [← hlen]
    rfl
  · exact Nat.succ_pos _
  · refine (hread (body.length + 1) ?_).trans ?_
    · simp [frame]
    · simp [frame]
  · refine (hread (i + 1) ?_).trans ?_
    · simp [frame]; omega
    · simp [frame, hi]
  · exact Memory.read_writeRun_other s.buf frame (.inr (by simp [frame]; omega))

/-! ## Registers and required tags (R226, R229 to R236, R252) -/

theorem declaredLength_eq (b1 b2 : Byte) : declaredLength b1 b2 = b1.toNat % 16 * 256 + b2.toNat := by
  have hmask : (b1 &&& 0x0F).toNat = b1.toNat % 16 := by
    rw [BitVec.toNat_and]
    exact Nat.and_two_pow_sub_one_eq_mod b1.toNat 4
  rw [declaredLength, hmask]

/-- The length a frame declares, the low 12 bits of its second and third byte (R72). -/
def State.declared (s : State) : Nat := (s.buf.read 1).toNat % 16 * 256 + (s.buf.read 2).toNat

theorem doVSize_of_lt {s : State} (h : s.len < 17) : doVSize s = .ended (s.afterAbort .frameTooSmall) := if_pos h

theorem doVSize_of_le {s : State} (h : 17 ≤ s.len) : doVSize s = .go s := if_neg (Nat.not_lt.2 h)

/-- Everything `V.LEN` can do on a buffer of three bytes or more (R230). -/
theorem doVLen_eq {s : State} (h : 3 ≤ s.len) :
    doVLen s = if s.declared = s.len - 2 then .go s else .ended (s.afterAbort .lengthMismatch) := by
  rw [doVLen, if_neg (Nat.not_lt.2 h), declaredLength_eq]
  exact ite_not ..

/-- Settles O44: the checks by `doVSize_of_lt`, `doVSize_of_le` and `doVLen_eq`; the other operations are one write. -/
theorem framerRegistersAndChecks : Obligations.FramerRegistersAndChecks := by
  intro s b
  refine ⟨rfl, rfl, rfl, rfl, rfl, fun h => ?_, fun h => ?_, fun h hlen => ?_, fun h hlen => ?_⟩
  · exact congrArg Flow.outcome (doVSize_of_le h)
  · exact congrArg Flow.outcome (doVSize_of_lt h)
  · exact congrArg Flow.outcome ((doVLen_eq h).trans (if_pos hlen))
  · exact congrArg Flow.outcome ((doVLen_eq h).trans (if_neg hlen))

/-- The shape that `ARRAY` and `STRUCT` have in common: the tag byte, the tag, the count byte, then `k` (R235, R252). -/
def requireTag (tag : Byte) (k : State → Flow) (s : State) : Flow :=
  need 1 s fun s => if s.byteAt s.tlv.cur ≠ tag then raise .unexpectedTag s else need 2 s k

theorem doArray_eq (n : Byte) : doArray n = requireTag tagArray fun s =>
    .go (s.setTlv { s.tlv with remStructs := n, cur := s.tlv.cur + 2 }) := rfl

theorem doStruct_eq (cnt : Byte) : doStruct cnt = requireTag tagStruct fun s =>
    .go ((s.setTlv (s.tlv.cleared cnt)).setAlt { s.alt with key := ⟨0, 0, 0⟩ }) := rfl

section
variable {tag : Byte} {k : State → Flow} {s : State}

theorem requireTag_of_end (h : s.len < s.tlv.cur + 1) :
    requireTag tag k s = .ended (s.afterAbort .truncatedStruct) := need_of_lt h

theorem requireTag_of_ne (h : s.tlv.cur + 1 ≤ s.len) (htag : s.buf.read s.tlv.cur ≠ tag) :
    requireTag tag k s = .ended (s.afterAbort .unexpectedTag) := (need_of_le h).trans (if_pos htag)

theorem requireTag_of_cut (h : s.tlv.cur + 1 = s.len) (htag : s.buf.read s.tlv.cur = tag) :
    requireTag tag k s = .ended (s.afterAbort .truncatedStruct) :=
  ((need_of_le h.le).trans (if_neg (not_not_intro htag))).trans (need_of_lt (h ▸ Nat.lt_succ_self _))

theorem requireTag_of_eq (h : s.tlv.cur + 2 ≤ s.len) (htag : s.buf.read s.tlv.cur = tag) :
    requireTag tag k s = k s :=
  ((need_of_le (Nat.le_of_succ_le h)).trans (if_neg (not_not_intro htag))).trans (need_of_le h)

end

/-- Settles O50: `H.DATE` by its one overrun check, `ARRAY` and `STRUCT` by the four ends of `requireTag`. -/
theorem dateAndRequiredTags : Obligations.DateAndRequiredTags := by
  intro s dl n cnt
  refine ⟨fun h => ⟨?_, ?_, ?_⟩, fun h => ⟨?_, fun ht => ?_, fun ht => ?_⟩, fun h => ⟨fun ht => ?_, fun ht => ?_⟩,
    fun h => ⟨fun ht => ?_, fun ht => ?_⟩⟩
  all_goals refine Flow.outcome_eq_next.2 ?_
  · exact .inr (need_of_lt h)
  · exact .inr ((congrFun (doArray_eq n) s).trans (requireTag_of_end h))
  · exact .inr ((congrFun (doStruct_eq cnt) s).trans (requireTag_of_end h))
  · exact .inl (need_of_le h)
  · exact .inr ((congrFun (doArray_eq n) s).trans (requireTag_of_ne h ht))
  · exact .inr ((congrFun (doStruct_eq cnt) s).trans (requireTag_of_ne h ht))
  · exact .inr ((congrFun (doArray_eq n) s).trans (requireTag_of_cut h ht))
  · exact .inr ((congrFun (doStruct_eq cnt) s).trans (requireTag_of_cut h ht))
  · exact .inl ((congrFun (doArray_eq n) s).trans (requireTag_of_eq h ht))
  · exact .inl ((congrFun (doStruct_eq cnt) s).trans (requireTag_of_eq h ht))

/-! ## The checks and the opening of a frame (R228 to R235) -/

/-- A frame that passes the three checks (R229 to R231). -/
structure State.Sound (s : State) : Prop where
  size : 17 ≤ s.len
  length : s.declared = s.len - 2
  check : s.frameSum = storedCheck s

theorem validateChecks_of_short {s : State} (h : s.len < 17) :
    validateChecks s = .ended (s.afterAbort .frameTooSmall) := by
  rw [validateChecks, doVSize_of_lt h]
  rfl

theorem validateChecks_of_length {s : State} (h : 17 ≤ s.len) (hlen : s.declared ≠ s.len - 2) :
    validateChecks s = .ended (s.afterAbort .lengthMismatch) := by
  rw [validateChecks, doVSize_of_le h, Flow.go_andThen, doVLen_eq (by omega), if_neg hlen]
  rfl

theorem validateChecks_of_check {s : State} (h : 17 ≤ s.len) (hlen : s.declared = s.len - 2)
    (hfcs : s.frameSum ≠ storedCheck s) :
    validateChecks s = .ended ((s.setFcs s.frameSum).afterAbort .crcMismatch) := by
  rw [validateChecks, doVSize_of_le h, Flow.go_andThen, doVLen_eq (by omega), if_pos hlen, Flow.go_andThen,
    doVFcs_eq (by omega), if_neg hfcs]
  rfl

/-- A sound frame's state behind `V.OK` (R232). -/
def State.checked (s : State) : State := (s.setFcs (storedCheck s)).setValid true

theorem State.Sound.validateChecks_eq {s : State} (h : s.Sound) : validateChecks s = .go s.checked := by
  obtain ⟨hsize, hlen, hfcs⟩ := h
  rw [validateChecks, doVSize_of_le hsize, Flow.go_andThen, doVLen_eq (by omega), if_pos hlen, Flow.go_andThen,
    doVFcs_eq (by omega), if_pos hfcs, hfcs]
  rfl

/-- The index of the array tag, behind the date field (R234). -/
def State.arrayAt (s : State) : Nat := (s.buf.read 17).toNat + 18

/-- `cur` at `n`, nothing else changed. -/
def State.atCur (s : State) (n : Nat) : State := s.setTlv { s.tlv with cur := n }

/-- A frame that ends behind its header holds no date field (R234). -/
theorem decodeOpening_of_lt {s : State} (h : s.len < 18) :
    decodeOpening s = .ended ((s.atCur 17).afterAbort .truncatedStruct) :=
  congrArg (Flow.andThen · _) (need_of_lt h)

/-- The date field skipped, `ARRAY` is next (R234, R235). -/
theorem decodeOpening_of_le {s : State} (h : 18 ≤ s.len) :
    decodeOpening s = doArray ((s.atCur s.arrayAt).elemByte 1) (s.atCur s.arrayAt) := by
  have hdate : doHDate ((doHHdr s).elemByte 0) (doHHdr s) = .go (s.atCur s.arrayAt) := by
    rw [State.arrayAt, Nat.add_comm]
    exact need_of_le h
  rw [decodeOpening, hdate, Flow.go_andThen]

/-- The state in which the walk of a sound frame's structures begins (R228, R235). -/
def State.opened (s : State) : State :=
  s.checked.setTlv { s.tlv with cur := s.arrayAt + 2, remStructs := s.buf.read (s.arrayAt + 1) }

/-- The structures of a frame and `H.DONE` (R228, R236). -/
def walkRun (s : State) : Flow := (structureLoop s.tlv.remStructs.toNat s).andThen fun t => .go (doHDone t)

theorem walkRun_of_none {s : State} (h : s.tlv.remStructs = 0) : walkRun s = .go (doHDone s) := by
  rw [walkRun, h]
  rfl

theorem doHValidate_of_ended {s t : State} (h : validateChecks s = .ended t) : doHValidate s = .ended t := by
  rw [doHValidate, h]
  rfl

section
variable {s : State} (h : s.Sound)
include h

theorem State.Sound.doHValidate_eq : doHValidate s = (decodeOpening s.checked).andThen walkRun := by
  rw [doHValidate, h.validateChecks_eq, Flow.go_andThen, Flow.andThen_assoc]
  rfl

theorem State.Sound.doHValidate_of_array (hsize : 18 ≤ s.len) {f : Flow}
    (harray : doArray ((s.checked.atCur s.arrayAt).elemByte 1) (s.checked.atCur s.arrayAt) = f) :
    doHValidate s = f.andThen walkRun := by
  have hopening : decodeOpening s.checked = _ := decodeOpening_of_le hsize
  rw [h.doHValidate_eq, hopening, ← harray]
  rfl

theorem State.Sound.doHValidate_walk (hsize : s.arrayAt + 2 ≤ s.len) (htag : s.buf.read s.arrayAt = tagArray) :
    doHValidate s = walkRun s.opened :=
  h.doHValidate_of_array (by rw [State.arrayAt] at hsize; omega) (requireTag_of_eq hsize htag)

end

/-- Settles O48: the failing checks by the lemmas on `validateChecks`, the opening by the ends of `decodeOpening` and
`requireTag`; with no structure left the walk is `H.DONE`. (`validateChecks` is the model's function.) -/
theorem validateChecks_firstFailing : Obligations.ValidateChecks := by
  intro s
  refine ⟨fun h => ?_, fun h hlen => ?_, fun h hlen hfcs => ⟨s.frameSum, ?_⟩,
    fun h hlen hfcs => ?_, fun h hlen hfcs hsize htag hnone => ?_⟩
  · exact congrArg Flow.outcome (doHValidate_of_ended (validateChecks_of_short h))
  · exact congrArg Flow.outcome (doHValidate_of_ended (validateChecks_of_length h hlen))
  · exact congrArg Flow.outcome (doHValidate_of_ended (validateChecks_of_check h hlen hfcs))
  · have hs : s.Sound := ⟨h, hlen, hfcs⟩
    refine ⟨fun h17 => ?_, fun h18 hcut => ?_, fun hin htag => ?_, fun hcut htag => ?_⟩
    · have hopening : decodeOpening s.checked = _ := decodeOpening_of_lt (s := s.checked) (show s.len < 18 by omega)
      have hrun := hs.doHValidate_eq
      rw [hopening] at hrun
      exact congrArg Flow.outcome hrun
    · exact congrArg Flow.outcome (hs.doHValidate_of_array h18 (requireTag_of_end (Nat.lt_succ_of_le hcut)))
    · exact congrArg Flow.outcome (hs.doHValidate_of_array (by omega) (requireTag_of_ne hin htag))
    · exact congrArg Flow.outcome (hs.doHValidate_of_array (by omega) (requireTag_of_cut hcut htag))
  · have hs : s.Sound := ⟨h, hlen, hfcs⟩
    have hrun := (hs.doHValidate_walk hsize htag).trans (walkRun_of_none hnone)
    refine (congrArg Flow.outcome hrun).trans ?_
    rw [← hnone]
    rfl

end Sys2Proof.Machine
end

section
/-! PROOFS for the family of 44_hdlc_framer.md, the walk of a frame. Each step of `Walk` is an equivalence, "from here
the walk ends where it ends from there"; the machine's loops keep it, so `H.VALIDATE` ends exactly where the walk does
(R228, R252, R253, R262), and what a raise of it leaves is the abort sequence's state (R329). -/

namespace Sys2Proof.Machine

/-! ## One step of the walk -/

section
variable {s u t : State} {i : Instr} {rest : List Byte}

theorem Walk.done_iff (h : s.tlv.remStructs = 0) : Walk .structureStart s t ↔ t = doHDone s := by
  constructor
  · rintro (_ | ⟨hne, -⟩ | ⟨hne, -⟩ | ⟨hne, -⟩)
    · rfl
    all_goals exact absurd h hne
  · rintro rfl
    exact .done h

theorem Walk.openStructure_iff (h : s.tlv.remStructs ≠ 0)
    (hdec : decode .structTag (s.bytes s.tlv.cur s.len) = .ok (i, rest)) (hexec : exec i s = .next u) :
    Walk .structureStart s t ↔ Walk .element u t := by
  refine ⟨fun hw => ?_, .openStructure h hdec hexec⟩
  cases hw with
  | done h0 => exact absurd h0 h
  | openStructure _ hdec' hexec' hw =>
    cases hdec.symm.trans hdec'
    cases hexec.symm.trans hexec'
    exact hw
  | wrongTag _ hdec' => cases hdec.symm.trans hdec'
  | cutStructure _ hdec' => cases hdec.symm.trans hdec'

theorem Walk.wrongTag_iff {b : Byte} (h : s.tlv.remStructs ≠ 0)
    (hdec : decode .structTag (s.bytes s.tlv.cur s.len) = .error (.wrongTag b)) :
    Walk .structureStart s t ↔ t = s.afterAbort .unexpectedTag := by
  refine ⟨fun hw => ?_, fun ht => ht ▸ .wrongTag h hdec⟩
  cases hw with
  | done h0 => exact absurd h0 h
  | openStructure _ hdec' => cases hdec.symm.trans hdec'
  | wrongTag => rfl
  | cutStructure _ hdec' => cases hdec.symm.trans hdec'

theorem Walk.cutStructure_iff (h : s.tlv.remStructs ≠ 0)
    (hdec : decode .structTag (s.bytes s.tlv.cur s.len) = .error .truncated) :
    Walk .structureStart s t ↔ t = s.afterAbort .truncatedStruct := by
  refine ⟨fun hw => ?_, fun ht => ht ▸ .cutStructure h hdec⟩
  cases hw with
  | done h0 => exact absurd h0 h
  | openStructure _ hdec' => cases hdec.symm.trans hdec'
  | wrongTag _ hdec' => cases hdec.symm.trans hdec'
  | cutStructure => rfl

theorem Walk.element_iff (h : s.tlv.rem ≠ 0) (hdec : decode .element (s.bytes s.tlv.cur s.len) = .ok (i, rest))
    (hexec : exec i s = .next u) : Walk .element s t ↔ Walk .element u t := by
  refine ⟨fun hw => ?_, .element h hdec hexec⟩
  cases hw with
  | element _ hdec' hexec' hw =>
    cases hdec.symm.trans hdec'
    cases hexec.symm.trans hexec'
    exact hw
  | cutElement _ hdec' => cases hdec.symm.trans hdec'
  | commit h0 => exact absurd h0 h
  | badExponent h0 => exact absurd h0 h

theorem Walk.cutElement_iff {e : DecodeError} (h : s.tlv.rem ≠ 0)
    (hdec : decode .element (s.bytes s.tlv.cur s.len) = .error e) :
    Walk .element s t ↔ t = s.afterAbort .truncatedStruct := by
  refine ⟨fun hw => ?_, fun ht => ht ▸ .cutElement h hdec⟩
  cases hw with
  | element _ hdec' => cases hdec.symm.trans hdec'
  | cutElement => rfl
  | commit h0 => exact absurd h0 h
  | badExponent h0 => exact absurd h0 h

theorem Walk.commit_iff (h : s.tlv.rem = 0) (hrange : s.usesScale → -4 ≤ s.tlv.scale.toInt ∧ s.tlv.scale.toInt ≤ 5)
    (hexec : exec .commit s = .next u) : Walk .element s t ↔ Walk .structureStart u t := by
  refine ⟨fun hw => ?_, .commit h hrange hexec⟩
  cases hw with
  | element hne => exact absurd h hne
  | cutElement hne => exact absurd h hne
  | commit _ _ hexec' hw =>
    cases hexec.symm.trans hexec'
    exact hw
  | badExponent _ huses hbad => exact absurd (hrange huses) hbad

theorem Walk.badExponent_iff (h : s.tlv.rem = 0) (huses : s.usesScale)
    (hbad : ¬ (-4 ≤ s.tlv.scale.toInt ∧ s.tlv.scale.toInt ≤ 5)) (hexec : exec .commit s = .next u) :
    Walk .element s t ↔ t = u := by
  refine ⟨fun hw => ?_, fun ht => ht ▸ .badExponent h huses hbad hexec⟩
  cases hw with
  | element hne => exact absurd h hne
  | cutElement hne => exact absurd h hne
  | commit _ hrange => exact absurd (hrange huses) hbad
  | badExponent _ _ _ hexec' =>
    cases hexec.symm.trans hexec'
    rfl

end

/-! ## What each step does, beside what the decoder reads (R252, R253, R262) -/

/-- An element the decoder reads whole is consumed without a raise, and the count of structures stays (R251). -/
theorem elementStep_of_decoded {s : State} {i : Instr} {rest : List Byte}
    (h : decode .element (s.bytes s.tlv.cur s.len) = .ok (i, rest)) :
    ∃ u, elementStep s = .go u ∧ u.tlv.remStructs = s.tlv.remStructs := by
  have h1 : s.tlv.cur + 1 ≤ s.len := by
    refine Nat.lt_of_not_le fun hend => ?_
    rw [State.bytes_of_ge hend] at h
    cases h
  rw [State.bytes_cons h1] at h
  have hwhole : s.tlv.cur + 1 + (tagSel (s.elemByte 0)).payload ≤ s.len := by
    refine Nat.le_of_not_lt fun hcut => ?_
    have hnone := decodeElement_cut (t := s.buf.read s.tlv.cur) (bs := s.bytes (s.tlv.cur + 1) s.len)
      (by rw [State.bytes_length]; exact Nat.sub_lt_left_of_lt_add h1 hcut)
    cases hnone.symm.trans h
  rw [elementStep, need_of_le h1]
  cases hsel : tagSel (s.elemByte 0)
  all_goals rw [hsel] at hwhole
  case octs =>
    have hls : s.tlv.cur + (2 + (s.elemByte 1).toNat) ≤ s.len := by
      refine Nat.le_of_not_lt fun hcut => ?_
      rw [State.bytes_cons hwhole] at h
      have hocts := (decodeElement_octs hsel).symm.trans h
      have hlong : ¬ (s.elemByte 1).toNat ≤ (s.bytes (s.tlv.cur + 1 + 1) s.len).length := by
        have h2 : s.tlv.cur + 2 ≤ s.len := hwhole
        rw [State.bytes_length]
        omega
      cases (if_neg hlong).symm.trans hocts
    simp only [doOcts_of_le hls]
    split
    · exact ⟨_, rfl, rfl⟩
    · exact ⟨_, rfl, rfl⟩
  case unk => exact ⟨_, rfl, rfl⟩
  all_goals exact ⟨_, need_of_le hwhole, rfl⟩

/-- Everything `STRUCT` can do, beside what the decoder reads at `cur` (R252). -/
theorem doStruct_cases (s : State) :
    (∃ i rest u, decode .structTag (s.bytes s.tlv.cur s.len) = .ok (i, rest) ∧ exec i s = .next u ∧
      doStruct (s.elemByte 1) s = .go u ∧ u.tlv.remStructs = s.tlv.remStructs) ∨
    (∃ b, decode .structTag (s.bytes s.tlv.cur s.len) = .error (.wrongTag b) ∧
      doStruct (s.elemByte 1) s = .ended (s.afterAbort .unexpectedTag)) ∨
    (decode .structTag (s.bytes s.tlv.cur s.len) = .error .truncated ∧
      doStruct (s.elemByte 1) s = .ended (s.afterAbort .truncatedStruct)) := by
  rw [doStruct_eq]
  rcases Nat.lt_or_ge s.tlv.cur s.len with h1 | hend
  · rw [State.bytes_cons h1]
    by_cases htag : s.buf.read s.tlv.cur = tagStruct
    · rcases Nat.lt_or_ge (s.tlv.cur + 1) s.len with h2 | hcut
      · refine .inl ⟨.struct (s.elemByte 1), s.bytes (s.tlv.cur + 1 + 1) s.len, _, ?_,
          congrArg Flow.outcome (requireTag_of_eq h2 htag), requireTag_of_eq h2 htag, rfl⟩
        rw [State.bytes_cons h2]
        exact if_pos htag
      · refine .inr (.inr ⟨?_, requireTag_of_cut (Nat.le_antisymm h1 hcut) htag⟩)
        rw [State.bytes_of_ge hcut]
        exact if_pos htag
    · exact .inr (.inl ⟨_, if_neg htag, requireTag_of_ne h1 htag⟩)
  · rw [State.bytes_of_ge hend]
    exact .inr (.inr ⟨rfl, requireTag_of_end (Nat.lt_succ_of_le hend)⟩)

theorem scaleInRange_iff {e : Byte} : scaleInRange e = true ↔ -4 ≤ e.toInt ∧ e.toInt ≤ 5 := by
  simp [scaleInRange]

theorem doRomLkp_tlv (key : Key) (s : State) : (doRomLkp key s).tlv = s.tlv := by
  obtain ⟨slot, -, h⟩ | ⟨-, h⟩ := doRomLkp_cases key s
  all_goals rw [h]

theorem doRomLkp_romHit_iff {key : Key} {s : State} :
    (doRomLkp key s).latch.romHit = true ↔ romSlotOf s.params.romExtra key ≠ none := by
  obtain ⟨slot, hrom, h⟩ | ⟨hrom, h⟩ := doRomLkp_cases key s
  · rw [h, hrom]
    exact iff_of_true rfl (Option.some_ne_none slot)
  · rw [h, hrom]
    exact iff_of_false Bool.false_ne_true (not_not_intro rfl)

/-- `COMMIT` up to the count where it uses the exponent (R262). -/
theorem commitSlot_of_uses {s : State} (h : s.usesScale) : commitSlot s = commitValue (doRomLkp s.alt.key s) := by
  obtain ⟨hcode, hrom⟩ := h
  rw [commitSlot, if_pos hcode]
  exact if_pos (doRomLkp_romHit_iff.2 hrom)

/-- A structure without a code, or with one the ROM does not know, is skipped (R262). -/
theorem commitSlot_of_not_uses {s : State} (h : ¬ s.usesScale) : ∃ u, commitSlot s = .go u ∧ u.tlv = s.tlv := by
  rw [commitSlot]
  by_cases hcode : s.tlv.codeFound = true
  · have hmiss : ¬ (doRomLkp s.alt.key s).latch.romHit = true := fun hhit => h ⟨hcode, doRomLkp_romHit_iff.1 hhit⟩
    rw [if_pos hcode]
    exact ⟨_, if_neg hmiss, doRomLkp_tlv _ _⟩
  · exact ⟨s, if_neg hcode, rfl⟩

theorem commitValue_of_range {s : State} (h : -4 ≤ s.tlv.scale.toInt ∧ s.tlv.scale.toInt ≤ 5) :
    ∃ u, commitValue s = .go u ∧ u.tlv = s.tlv := by
  obtain ⟨v, hv⟩ := exists_scaledValue (rawValue s.tlv) h
  rw [commitValue, if_pos (scaleInRange_iff.2 h), doSclScale, hv]
  exact ⟨_, rfl, rfl⟩

/-- `COMMIT` of a usable structure goes on and counts it (R262). -/
theorem doCommit_of_range {s : State} (h : s.usesScale → -4 ≤ s.tlv.scale.toInt ∧ s.tlv.scale.toInt ≤ 5) :
    ∃ u, doCommit s = .go u ∧ u.tlv.remStructs = s.tlv.remStructs - 1 := by
  have hslot : ∃ u, commitSlot s = .go u ∧ u.tlv = s.tlv := by
    by_cases huses : s.usesScale
    · rw [commitSlot_of_uses huses]
      obtain ⟨u, hu, htlv⟩ := commitValue_of_range (s := doRomLkp s.alt.key s) (by rw [doRomLkp_tlv]; exact h huses)
      exact ⟨u, hu, htlv.trans (doRomLkp_tlv _ _)⟩
    · exact commitSlot_of_not_uses huses
  obtain ⟨u, hu, htlv⟩ := hslot
  rw [doCommit, hu, Flow.go_andThen]
  exact ⟨_, rfl, by rw [State.setTlv_tlv, htlv]⟩

/-- `COMMIT` raises where the exponent it uses is out of range (R262). -/
theorem doCommit_of_bad {s : State} (huses : s.usesScale)
    (hbad : ¬ (-4 ≤ s.tlv.scale.toInt ∧ s.tlv.scale.toInt ≤ 5)) :
    doCommit s = .ended ((doRomLkp s.alt.key s).afterAbort .malformedValue) := by
  have hraise : ¬ scaleInRange (doRomLkp s.alt.key s).tlv.scale = true := by
    rw [scaleInRange_iff, doRomLkp_tlv]
    exact hbad
  rw [doCommit, commitSlot_of_uses huses, commitValue, if_neg hraise]
  rfl

/-! ## What a raise of `H.VALIDATE` leaves (R329) -/

/-- What the abort sequence leaves of `s`, its report the last event: the machine scanning, and of `s` the buffer's
bytes, the environment, the protocol and the parameters. -/
structure State.AbortedFrom (s t : State) : Prop where
  aborted : t.Aborted
  reported : ∃ e, t.trace.getLast? = some (.report e)
  buf : t.buf = s.buf
  env : t.env = s.env
  protocol : t.protocol = s.protocol
  params : t.params = s.params

theorem State.abortedFrom_afterAbort (s : State) (e : ErrorCode) : s.AbortedFrom (s.afterAbort e) :=
  ⟨s.afterAbort_aborted e, ⟨e, List.getLast?_concat⟩, rfl, rfl, rfl, rfl⟩

theorem State.Quiet.abortedFrom {s u t : State} (h : s.Quiet u) (h' : u.AbortedFrom t) : s.AbortedFrom t :=
  ⟨h'.aborted, h'.reported, h'.buf.trans h.buf, h'.env.trans h.env, h'.protocol.trans h.protocol,
    h'.params.trans h.params⟩

/-! ## The loops keep to the walk (R228, R253) -/

/-- The machine goes on quietly from `s` to `u`, and the walk from `s` ends where it ends from `u`. -/
structure State.WalksTo (p q : WalkAt) (s u : State) : Prop where
  quiet : s.Quiet u
  walk : ∀ t, Walk p s t ↔ Walk q u t

/-- From `s` the walk ends in `t` and nowhere else. -/
def State.WalkEnds (p : WalkAt) (s t : State) : Prop := ∀ t', Walk p s t' ↔ t' = t

/-- From `s` the walk ends in `t`, what the abort sequence leaves of `s`. -/
structure State.WalkRaises (p : WalkAt) (s t : State) : Prop where
  ends : s.WalkEnds p t
  abort : s.AbortedFrom t

theorem State.WalksTo.refl (p : WalkAt) (s : State) : s.WalksTo p p s := ⟨.refl s, fun _ => Iff.rfl⟩

theorem State.WalksTo.trans {p q r : WalkAt} {s u v : State} (h : s.WalksTo p q u) (h' : u.WalksTo q r v) :
    s.WalksTo p r v := ⟨h.quiet.trans h'.quiet, fun t => (h.walk t).trans (h'.walk t)⟩

theorem State.WalksTo.ends {p q : WalkAt} {s u t : State} (h : s.WalksTo p q u) (h' : u.WalkEnds q t) :
    s.WalkEnds p t := fun t' => (h.walk t').trans (h' t')

theorem State.WalksTo.raises {p q : WalkAt} {s u t : State} (h : s.WalksTo p q u) (h' : u.WalkRaises q t) :
    s.WalkRaises p t := ⟨h.ends h'.ends, h.quiet.abortedFrom h'.abort⟩

/-- It goes on to a `u` the walk reaches from `s`, the count of structures at `n`, or raises where the walk does. -/
abbrev Flow.Walks (p q : WalkAt) (s : State) (n : Byte) (G : State → Prop) (f : Flow) : Prop :=
  f.Meets True (fun u => s.WalksTo p q u ∧ u.tlv.remStructs = n ∧ G u) (s.WalkRaises p)

/-- Walking in two parts. -/
theorem Flow.Walks.andThen {p q r : WalkAt} {s : State} {m n : Byte} {G H : State → Prop} {f : Flow}
    {k : State → Flow} (hf : f.Walks p q s m G)
    (hk : ∀ u, u.tlv.remStructs = m → G u → (k u).Walks q r u n H) : (f.andThen k).Walks p r s n H :=
  Flow.Meets.andThen hf fun u ⟨hwalk, hcount, hG⟩ => (hk u hcount hG).mono id
    (fun _ ⟨hwalk', hcount', hH⟩ => ⟨hwalk.trans hwalk', hcount', hH⟩) fun _ ht => hwalk.raises ht

theorem elementStep_walks {s : State} (h : s.tlv.rem ≠ 0) :
    (elementStep s).Walks .element .element s s.tlv.remStructs s.Advances := by
  obtain ⟨i, rest, hdec, hexec⟩ | ⟨hdec, hended⟩ := elementStep_read s
  · obtain ⟨u, hgo, hcount⟩ := elementStep_of_decoded hdec
    have hadv := elementStep_meets s
    rw [hgo] at hexec hadv ⊢
    have ⟨hq, _, _⟩ := hadv
    exact ⟨⟨hq, fun t => Walk.element_iff h hdec hexec.symm⟩, hcount, hadv⟩
  · rw [hended]
    exact ⟨fun t => Walk.cutElement_iff h hdec, s.abortedFrom_afterAbort _⟩

/-- The element loop, with a bound it does not reach (R253, R263). -/
theorem elementLoop_walks {bound : Nat} {s : State} (hcur : s.tlv.cur ≤ s.len) (hb : s.len < s.tlv.cur + bound) :
    (elementLoop bound s).Walks .element .element s s.tlv.remStructs fun u => u.tlv.rem = 0 := by
  induction bound generalizing s with
  | zero => omega
  | succ bound ih =>
    unfold elementLoop
    split
    next h => exact ⟨.refl _ s, rfl, h⟩
    next h =>
      refine Flow.Walks.andThen (elementStep_walks h) fun u hcount ⟨hq, hlt, hle⟩ => ?_
      have hlen := hq.len
      rw [← hcount]
      exact ih hle (by omega)

theorem doStruct_walks {s : State} (h : s.tlv.remStructs ≠ 0) :
    (doStruct (s.elemByte 1) s).Walks .structureStart .element s s.tlv.remStructs fun u => u.tlv.cur ≤ u.len := by
  have hquiet := doStruct_meets (s.elemByte 1) s
  obtain ⟨i, rest, u, hdec, hexec, hgo, hcount⟩ | ⟨b, hdec, hended⟩ | ⟨hdec, hended⟩ := doStruct_cases s
  · rw [hgo] at hquiet ⊢
    obtain ⟨hq, hcur⟩ := hquiet
    exact ⟨⟨hq, fun t => Walk.openStructure_iff h hdec hexec⟩, hcount, hcur⟩
  · rw [hended]
    exact ⟨fun t => Walk.wrongTag_iff h hdec, s.abortedFrom_afterAbort _⟩
  · rw [hended]
    exact ⟨fun t => Walk.cutStructure_iff h hdec, s.abortedFrom_afterAbort _⟩

theorem doCommit_walks {s : State} (h : s.tlv.rem = 0) :
    (doCommit s).Walks .element .structureStart s (s.tlv.remStructs - 1) fun _ => True := by
  by_cases hrange : s.usesScale → -4 ≤ s.tlv.scale.toInt ∧ s.tlv.scale.toInt ≤ 5
  · obtain ⟨u, hgo, hcount⟩ := doCommit_of_range hrange
    have hq := doCommit_quietly s
    rw [hgo] at hq ⊢
    exact ⟨⟨hq, fun t => Walk.commit_iff h hrange (congrArg Flow.outcome hgo)⟩, hcount, trivial⟩
  · obtain ⟨huses, hbad⟩ := Classical.not_imp.1 hrange
    have hended := doCommit_of_bad huses hbad
    rw [hended]
    exact ⟨fun t => Walk.badExponent_iff h huses hbad (congrArg Flow.outcome hended),
      (doRomLkp_quiet _ s).abortedFrom (State.abortedFrom_afterAbort _ _)⟩

/-- One structure, from its tag to its `COMMIT` (R253). -/
theorem structureStep_walks {s : State} (h : s.tlv.remStructs ≠ 0) :
    (structureStep s).Walks .structureStart .structureStart s (s.tlv.remStructs - 1) fun _ => True := by
  have hbody : ((doStruct (s.elemByte 1) s).andThen fun t => elementLoop (t.len + 1 - t.tlv.cur) t).Walks
      .structureStart .element s s.tlv.remStructs fun u => u.tlv.rem = 0 :=
    Flow.Walks.andThen (doStruct_walks h) fun u hcount hcur => hcount ▸ elementLoop_walks hcur (by omega)
  exact Flow.Walks.andThen hbody fun u hcount hrem => hcount ▸ doCommit_walks hrem

/-- The structures of a frame, the bound being at least their count (R228). -/
theorem structureLoop_walks {bound : Nat} {s : State} (hb : s.tlv.remStructs.toNat ≤ bound) :
    (structureLoop bound s).Walks .structureStart .structureStart s 0 fun _ => True := by
  induction bound generalizing s with
  | zero => exact ⟨.refl _ s, BitVec.eq_of_toNat_eq (Nat.le_zero.1 hb), trivial⟩
  | succ bound ih =>
    unfold structureLoop
    split
    next h => exact ⟨.refl _ s, h, trivial⟩
    next h =>
      refine Flow.Walks.andThen (structureStep_walks h) fun u hcount _ => ih ?_
      rw [hcount]
      bv_omega

/-- The structures of a frame and `H.DONE` end where the walk does (R228, R236). -/
theorem walkRun_walks (s : State) :
    (walkRun s).Meets True (s.WalkEnds .structureStart) (s.WalkRaises .structureStart) :=
  Flow.Meets.andThen (structureLoop_walks (Nat.le_refl _)) fun _ ⟨hwalk, hzero, _⟩ =>
    hwalk.ends fun _ => Walk.done_iff hzero

/-- Settles O49: a sound frame's walk begins at `opened`, and `walkRun` has one outcome, where the walk ends. -/
theorem frameWalk : Obligations.FrameWalk := by
  intro s h hlen hfcs hsize htag t
  have hrun : doHValidate s = walkRun s.opened := State.Sound.doHValidate_walk ⟨h, hlen, hfcs⟩ hsize htag
  obtain ⟨u, hnext, hends⟩ := ((walkRun_walks s.opened).mono id (fun _ => id) fun _ ht => ht.ends).next trivial
  have hexec : exec .hValidate s = .next u := (congrArg Flow.outcome hrun).trans hnext
  rw [hexec]
  refine Iff.trans ?_ (hends t).symm
  rw [Host.Outcome.next.injEq, eq_comm]

/-! ## How `H.VALIDATE` ends (R228, R263, R329) -/

theorem decodeOpening_post (s : State) : (decodeOpening s).Post s.Quiet s.AbortedFrom := by
  have habort {t : State} (ht : s.Quiet t) (e : ErrorCode) := ht.abortedFrom (t.abortedFrom_afterAbort e)
  have hdate : (doHDate ((doHHdr s).elemByte 0) (doHHdr s)).Post s.Quiet s.AbortedFrom :=
    need_post (habort (doHHdr_quiet s) _) (.work s _ _ _ _ _ _)
  refine hdate.andThen fun t ht => need_post (habort ht _) ?_
  split
  · exact habort ht _
  · exact need_post (habort ht _) (ht.trans (.work t _ _ _ _ _ _))

/-- Whatever raises in `H.VALIDATE`, the abort sequence's report is the last event. -/
theorem doHValidate_post (s : State) : (doHValidate s).Post (fun _ => True) s.AbortedFrom := by
  rcases Nat.lt_or_ge s.len 17 with hshort | hsize
  · rw [doHValidate_of_ended (validateChecks_of_short hshort)]
    exact s.abortedFrom_afterAbort _
  by_cases hlen : s.declared = s.len - 2
  case neg =>
    rw [doHValidate_of_ended (validateChecks_of_length hsize hlen)]
    exact s.abortedFrom_afterAbort _
  by_cases hfcs : s.frameSum = storedCheck s
  case neg =>
    rw [doHValidate_of_ended (validateChecks_of_check hsize hlen hfcs)]
    exact State.Quiet.abortedFrom (.work s _ _ _ _ _ _) (State.abortedFrom_afterAbort _ _)
  have hdecode : ((decodeOpening s.checked).andThen walkRun).Post (fun _ => True) s.checked.AbortedFrom :=
    (decodeOpening_post s.checked).andThen fun u hu =>
      ((walkRun_walks u).mono id (fun _ _ => trivial) fun _ ht => hu.abortedFrom ht.abort).post
  rw [State.Sound.doHValidate_eq ⟨hsize, hlen, hfcs⟩]
  exact hdecode.mono (fun _ => id) fun t ht => ⟨ht.aborted, ht.reported, ht.buf, ht.env, ht.protocol, ht.params⟩

/-- Settles O47: `doHValidate_meets` where it goes on, `doHValidate_post` where it raises. -/
theorem validateOutcome : Obligations.ValidateOutcome := by
  intro s
  have hmeets := doHValidate_meets s
  have hpost := doHValidate_post s
  cases hrun : doHValidate s with
  | go t =>
    rw [hrun] at hmeets
    obtain ⟨u, hq, rfl⟩ := hmeets
    refine ⟨_, congrArg Flow.outcome hrun, rfl, rfl, hq.buf, hq.env, hq.protocol, hq.params, .inl ⟨rfl, ?_, ?_, ?_⟩⟩
    · exact (congrArg Agg.valid hq.agg : u.agg.valid = _)
    · exact (congrArg Agg.crc hq.agg : u.agg.crc = _)
    · exact (congrArg Agg.pubcur hq.agg : u.agg.pubcur = _)
  | ended t =>
    rw [hrun] at hpost
    obtain ⟨hlen, hhstate, -⟩ := hpost.aborted
    exact ⟨t, congrArg Flow.outcome hrun, hhstate, hlen, hpost.buf, hpost.env, hpost.protocol, hpost.params,
      .inr ⟨hpost.aborted, hpost.reported⟩⟩
  | stop r =>
    rw [hrun] at hmeets
    exact absurd trivial hmeets

end Sys2Proof.Machine
end

section
/-! PROOFS for the family of 45_tlv_walker.md. Where the frame ends an element (R251, R325), and what `COMMIT` writes
(R262). -/

namespace Sys2Proof.Machine

/-! ## An element the frame cuts off (R251) -/

/-- Settles O53: each operation is one overrun check for its whole length. -/
theorem truncatedElements : Obligations.TruncatedElements := by
  intro s
  refine ⟨fun h b => ⟨?_, ?_, ?_⟩, fun h v => ⟨?_, ?_⟩, fun h v => ?_⟩
  all_goals exact congrArg Flow.outcome (need_of_lt h)

/-! ## `COMMIT` (R262) -/

section
variable {s : State} {slot : Fin 28} {v : F64}

/-- The structure is counted, whatever became of its value. -/
def State.countStruct (s : State) : State := s.setTlv { s.tlv with remStructs := s.tlv.remStructs - 1 }

theorem doCommit_of_commitSlot {t : State} (h : commitSlot s = .go t) : doCommit s = .go t.countStruct := by
  rw [doCommit, h]
  rfl

theorem commitSlot_of_no_code (h : s.tlv.codeFound = false) : commitSlot s = .go s :=
  if_neg (ne_true_of_eq_false h)

theorem commitSlot_of_miss (hcode : s.tlv.codeFound = true) (hmiss : romSlotOf s.params.romExtra s.alt.key = none) :
    commitSlot s = .go (s.setLatch { s.latch with romHit := false }) := by
  rw [commitSlot, if_pos hcode, doRomLkp_of_miss hmiss]
  exact if_neg Bool.false_ne_true

/-- After a hit the scaled value goes into the slot the ROM drives out. -/
theorem commitValue_romDrive (hrange : -4 ≤ s.tlv.scale.toInt ∧ s.tlv.scale.toInt ≤ 5)
    (hv : scaledValue (rawValue s.tlv) s.tlv.scale.toInt = some v) :
    commitValue (romDrive slot s) =
      .go ((s.setLatch { romHit := true, romSlot := slot, value := v }).setSlot slot v) := by
  have hscale : doSclScale (rawValue s.tlv) s.tlv.scale.toInt (romDrive slot s) =
      .go (s.setLatch { romHit := true, romSlot := slot, value := v }) := by
    rw [doSclScale, hv]
    rfl
  calc commitValue (romDrive slot s)
      = (doSclScale (rawValue s.tlv) s.tlv.scale.toInt (romDrive slot s)).andThen
          fun t => .go (doAggWr t.latch.romSlot t.latch.value t) := if_pos (scaleInRange_iff.2 hrange)
    _ = .go ((s.setLatch { romHit := true, romSlot := slot, value := v }).setSlot slot v) := by
        rw [hscale]
        rfl

end

/-- Settles O54: `commitSlot` without a code, on a miss and on a hit; the exponent of a hit has an entry in the
power-of-ten table, or `doCommit_of_bad` says what it raises. -/
theorem commitResult : Obligations.CommitResult := by
  intro s _
  refine ⟨fun hcode => ?_, fun hcode hmiss => ?_, fun slot hcode hslot => ?_⟩
  · exact congrArg Flow.outcome (doCommit_of_commitSlot (commitSlot_of_no_code hcode))
  · exact congrArg Flow.outcome (doCommit_of_commitSlot (commitSlot_of_miss hcode hmiss))
  · have huses : s.usesScale := ⟨hcode, hslot ▸ Option.some_ne_none slot⟩
    have hlkp : doRomLkp s.alt.key s = romDrive slot s := doRomLkp_of_slot hslot
    refine ⟨fun hrange => ?_, fun hbad => ?_⟩
    · obtain ⟨v, hv⟩ := exists_scaledValue (rawValue s.tlv) hrange
      have hhit : commitSlot s = commitValue (romDrive slot s) := hlkp ▸ commitSlot_of_uses huses
      have hwrite := hhit.trans (commitValue_romDrive hrange hv)
      exact ⟨v, congrArg Flow.outcome (doCommit_of_commitSlot hwrite),
        scaledValue_roundsTo (rawValue_natAbs_lt s.tlv) hv⟩
    · have hraise : doCommit s = .ended ((romDrive slot s).afterAbort .malformedValue) :=
        hlkp ▸ doCommit_of_bad huses hbad
      exact congrArg Flow.outcome hraise

end Sys2Proof.Machine
end

section
/-! PROOFS for the family of 46_aggregate_facade.md. What `AGG.INIT`, `AGG.WR` and `AGG.DLV` leave (R291 to R293), the
drain of the slots in index order over any batch (R295, R306), the dispatch of `INVOKE` (R294), and the delivery
condition: the walk of both parsers finds no operation that delivers (R302). -/

namespace Sys2Proof.Machine

/-! ## The aggregate's operations (R291 to R293) -/

/-- A delivery of the slot the cursor names. -/
theorem doAggDlv_of_slot {s : State} {i : Fin 28} (h : s.agg.pubcur = 28 - i.val) :
    doAggDlv s = .go { s with
      trace := s.trace ++ [.deliver i (s.agg.slots.get i)]
      agg := { s.agg with pubcur := s.agg.pubcur - 1 } } := by
  have hi : (⟨28 - s.agg.pubcur, by omega⟩ : Fin 28) = i := Fin.ext (by simp only; omega)
  rw [doAggDlv_of_le (by omega) (by omega), hi]

/-- Settles O20: `AGG.INIT` and `AGG.WR` are one write each, `AGG.DLV` is `doAggDlv_of_slot`. -/
theorem aggregateOperations : Obligations.AggregateOperations := by
  refine ⟨fun s => rfl, fun i v s => ?_, fun s i h => congrArg Flow.outcome (doAggDlv_of_slot h)⟩
  exact ⟨doAggWr i v s, rfl, rfl, s.setSlot_get_same i v, fun j hj => s.setSlot_get_other v hj⟩

/-! ## The dispatch of INVOKE (R294) -/

/-- Settles O8, by the two flags and the protocol. -/
theorem invokeDispatch : Obligations.InvokeDispatch := by
  intro s
  show (doInvoke s).outcome = _
  unfold doInvoke
  split_ifs with hc hv hp
  · rfl
  · rfl
  · rw [hp]; rfl
  · cases h : s.protocol with
    | ascii => exact absurd h hp
    | hdlc => rfl

/-! ## Deliveries in index order (R293, R295) -/

theorem deliveries_zero (slots : Vector F64 28) (start : Nat) : deliveries slots start 0 = [] := by
  simp [deliveries]

/-- The slots from `start` on begin with `start` itself. -/
theorem deliveries_succ (slots : Vector F64 28) (i : Fin 28) (k : Nat) :
    deliveries slots i k.succ = .deliver i (slots.get i) :: deliveries slots (i + 1) k := by
  have hsorted := List.sortedLT_finRange 28
  have hindices : ((List.finRange 28).filter fun j => decide (i.val ≤ j.val) && decide (j.val < i.val + k.succ)) =
      i :: (List.finRange 28).filter fun j => decide (i.val + 1 ≤ j.val) && decide (j.val < i.val + 1 + k) := by
    refine List.Pairwise.eq_of_mem_iff (r := (· < ·)) (hsorted.pairwise.filter _)
      (List.pairwise_cons.2 ⟨fun j hj => ?_, hsorted.pairwise.filter _⟩) fun j => ?_
    · simp only [List.mem_filter, Bool.and_eq_true, decide_eq_true_eq] at hj
      omega
    · simp only [List.mem_filter, List.mem_finRange, List.mem_cons, true_and, Bool.and_eq_true, decide_eq_true_eq,
        Fin.ext_iff]
      omega
  rw [deliveries, hindices]
  rfl

theorem deliveries_add (slots : Vector F64 28) {start j : Nat} (k : Nat) (h : start + j ≤ 28) :
    deliveries slots start (j + k) = deliveries slots start j ++ deliveries slots (start + j) k := by
  induction j generalizing start with
  | zero => rw [deliveries_zero, Nat.zero_add, Nat.add_zero, List.nil_append]
  | succ j ih =>
    have hhead := deliveries_succ slots ⟨start, by omega⟩
    rw [Nat.add_right_comm, hhead, hhead, ih (by simp only; omega), List.cons_append]
    simp only [Nat.add_assoc, Nat.add_comm 1 j]

theorem deliveries_all (slots : Vector F64 28) :
    deliveries slots 0 28 = (List.finRange 28).map fun i => Event.deliver i (slots.get i) := by
  simp [deliveries]

theorem isDeliver_of_mem_deliveries {slots : Vector F64 28} {start k : Nat} {ev : Event}
    (h : ev ∈ deliveries slots start k) : ev.isDeliver = true := by
  obtain ⟨i, -, rfl⟩ := List.mem_map.1 h
  rfl

/-- The state after the next `k` deliveries. -/
def State.drained (s : State) (k : Nat) : State :=
  { s with trace := s.trace ++ deliveries s.agg.slots (28 - s.agg.pubcur) k
           agg := { s.agg with pubcur := s.agg.pubcur - k } }

theorem State.drained_zero (s : State) : s.drained 0 = s := by
  rw [State.drained, deliveries_zero, List.append_nil]
  rfl

/-- Deliveries in two parts. -/
theorem State.drained_add {s : State} {j : Nat} (k : Nat) (hj : j ≤ s.agg.pubcur) (h28 : s.agg.pubcur ≤ 28) :
    s.drained (j + k) = (s.drained j).drained k := by
  have hstart : 28 - s.agg.pubcur + j = 28 - (s.agg.pubcur - j) := by omega
  simp only [State.drained, deliveries_add s.agg.slots k (show 28 - s.agg.pubcur + j ≤ 28 by omega), hstart,
    List.append_assoc, Nat.sub_sub]

theorem doAggDlv_eq_drained {s : State} (h1 : 1 ≤ s.agg.pubcur) (h28 : s.agg.pubcur ≤ 28) :
    doAggDlv s = .go (s.drained 1) := by
  have hone := deliveries_succ s.agg.slots ⟨28 - s.agg.pubcur, by omega⟩ 0
  rw [deliveries_zero] at hone
  rw [doAggDlv_of_le h1 h28, State.drained, hone]

theorem deliverRun_eq {k : Nat} {s : State} (hk : k ≤ s.agg.pubcur) (h28 : s.agg.pubcur ≤ 28) :
    deliverRun k s = .go (s.drained k) := by
  induction k generalizing s with
  | zero => rw [s.drained_zero]; rfl
  | succ k ih =>
    have hcur : (s.drained 1).agg.pubcur = s.agg.pubcur - 1 := rfl
    rw [deliverRun, doAggDlv_eq_drained (by omega) h28, Flow.go_andThen, ih (by omega) (by omega),
      ← State.drained_add k (by omega) h28, Nat.add_comm]

/-- `F.DRAIN` below a legal cursor: a batch, and `AGG.INIT` when it was the last (R295). -/
theorem doFDrain_eq {s : State} {k : Nat} (hk : min s.params.publishBatch s.agg.pubcur = k)
    (h28 : s.agg.pubcur ≤ 28) :
    doFDrain s = .go (if k = s.agg.pubcur then (s.drained k).aggInit else s.drained k) := by
  have hle : k ≤ s.agg.pubcur := hk ▸ Nat.min_le_right _ _
  have hlast : (s.drained k).agg.pubcur = 0 ↔ k = s.agg.pubcur := by
    show s.agg.pubcur - k = 0 ↔ k = s.agg.pubcur
    omega
  rw [doFDrain, hk, deliverRun_eq hle h28, Flow.go_andThen]
  simp only [hlast]
  split
  · rfl
  · rfl

/-- Settles O10, by `doFDrain_eq`. -/
theorem drainResult : Obligations.DrainResult := by
  intro s h28 k
  refine (congrArg Flow.outcome (doFDrain_eq rfl h28)).trans ?_
  by_cases hk : k = s.agg.pubcur
  · rw [if_pos hk, if_pos hk]
    rfl
  · rw [if_neg hk, if_neg hk]
    rfl

/-! ## A whole drain (R295, R306) -/

/-- An `INVOKE` of a complete, valid telegram is the `F.DRAIN` of the next batch (R294, R302). -/
theorem exec_invoke_of_deliverable {s : State} {k : Nat} (hc : s.agg.complete = true) (hv : s.agg.valid = true)
    (hk : min s.params.publishBatch s.agg.pubcur = k) (h28 : s.agg.pubcur ≤ 28) :
    exec .invoke s = .next (if k = s.agg.pubcur then (s.drained k).aggInit else s.drained k) := by
  rw [invokeDispatch s, if_pos hc, if_pos hv]
  exact congrArg Flow.outcome (doFDrain_eq hk h28)

theorem invocations_succ {s t : State} (k : Nat) (h : exec .invoke s = .next t) :
    invocations (k + 1) s = invocations k t := by
  rw [invocations, h]

/-- Batch after batch down to the last slot: `n` full batches, and one more that ends at it (R306). -/
theorem invocations_drain {n : Nat} {s : State} (hc : s.agg.complete = true) (hv : s.agg.valid = true)
    (hcur : 1 ≤ s.agg.pubcur) (h28 : s.agg.pubcur ≤ 28) (hbatch : 1 ≤ s.params.publishBatch)
    (hn : (s.agg.pubcur - 1) / s.params.publishBatch = n) :
    invocations (n + 1) s = .next (s.drained s.agg.pubcur).aggInit := by
  induction n generalizing s with
  | zero =>
    have hlast : s.agg.pubcur ≤ s.params.publishBatch := by
      have := (Nat.div_eq_zero_iff_lt hbatch).1 hn
      omega
    rw [invocations_succ 0 (exec_invoke_of_deliverable hc hv (Nat.min_eq_right hlast) h28), if_pos rfl]
    rfl
  | succ n ih =>
    have hmore : s.params.publishBatch < s.agg.pubcur := by
      have := (Nat.div_pos_iff.1 (Nat.lt_of_lt_of_eq n.succ_pos hn.symm)).2
      omega
    have hrest : (s.agg.pubcur - s.params.publishBatch - 1) / s.params.publishBatch = n := by
      rw [Nat.div_eq_sub_div hbatch (by omega), Nat.sub_right_comm] at hn
      exact Nat.succ.inj hn
    have hsum : s.params.publishBatch + (s.agg.pubcur - s.params.publishBatch) = s.agg.pubcur := by omega
    have hbatches := ih (s := s.drained s.params.publishBatch) hc hv (Nat.sub_pos_of_lt hmore)
      ((Nat.sub_le _ _).trans h28) hbatch hrest
    rw [invocations_succ _ (exec_invoke_of_deliverable hc hv (Nat.min_eq_left hmore.le) h28), if_neg hmore.ne,
      hbatches]
    show Host.Outcome.next ((s.drained _).drained (s.agg.pubcur - s.params.publishBatch)).aggInit = _
    rw [← State.drained_add _ hmore.le h28, hsum]

/-- Settles O11: `ceil(28 / b)` is `27 / b + 1`, and the deliveries of slots 0 to 27 are those of all slots. -/
theorem wholeDrain : Obligations.WholeDrain := by
  intro s hc hv hcur hbatch _
  have hceil : (27 + s.params.publishBatch) / s.params.publishBatch = 27 / s.params.publishBatch + 1 :=
    Nat.add_div_right 27 hbatch
  rw [hceil, invocations_drain hc hv (by omega) (by omega) hbatch (by rw [hcur]), ← deliveries_all, hcur]
  simp only [State.drained, hcur]
  rfl

/-! ## What a parse delivers: nothing (R302) -/

/-- The deliveries emitted so far. -/
def State.deliveredEvents (s : State) : List Event := s.trace.filter Event.isDeliver

theorem State.deliveredEvents_report (s : State) (e : ErrorCode) :
    (s.report e).deliveredEvents = s.deliveredEvents := by
  simp [State.deliveredEvents, Event.isDeliver]

theorem State.deliveredEvents_afterAbort (s : State) (e : ErrorCode) :
    (s.afterAbort e).deliveredEvents = s.deliveredEvents := s.deliveredEvents_report e

/-- However the micro-operation ends, the deliveries emitted are still `d`. -/
abbrev Flow.DeliversNone (d : List Event) (f : Flow) : Prop :=
  f.Post (fun t => t.deliveredEvents = d) fun t => t.deliveredEvents = d

section
variable {d : List Event} {s : State} (h : s.deliveredEvents = d)
include h

theorem raise_deliversNone (e : ErrorCode) : (raise e s).DeliversNone d := by
  rw [raise_eq]
  exact (s.deliveredEvents_afterAbort e).trans h

theorem need_deliversNone {n : Nat} {k : State → Flow} (hk : (k s).DeliversNone d) : (need n s k).DeliversNone d :=
  need_post ((s.deliveredEvents_afterAbort _).trans h) hk

theorem bufAppend_deliversNone (b : Byte) : (bufAppend b s).DeliversNone d := by
  obtain ⟨-, he⟩ | ⟨-, he⟩ := bufAppend_cases b s
  · rw [he]; exact h
  · rw [he]; exact (s.deliveredEvents_afterAbort _).trans h

theorem doRomLkp_deliveredEvents (key : Key) : (doRomLkp key s).deliveredEvents = d := by
  obtain ⟨slot, -, he⟩ | ⟨-, he⟩ := doRomLkp_cases key s
  · rw [he]; exact h
  · rw [he]; exact h

/-! A line of an ASCII telegram (R103, R192, R200). -/

theorem decStep_deliversNone (b : Byte) : (decStep b s).DeliversNone d := by
  unfold decStep
  split
  next => exact h
  next =>
    simp only [doDecDigit]
    split
    · exact raise_deliversNone (s := s.setDec _) h _
    · exact h
  next => exact h
  next =>
    unfold doDecFrac
    split
    · exact raise_deliversNone h _
    · exact h
  next => exact raise_deliversNone h _

theorem decRun_deliversNone (bs : List Byte) : (decRun bs s).DeliversNone d := by
  induction bs generalizing s with
  | nil => exact h
  | cons b bs ih => exact (decStep_deliversNone h b).andThen fun _ ht => ih ht

theorem doDecParse_deliversNone (k : Fin 4) : (doDecParse k s).DeliversNone d := by
  refine State.withToken_post fun bs => (decRun_deliversNone (s := s.setDec Dec.init) h bs).andThen fun t ht => ?_
  unfold doDecEnd
  split
  · exact ht
  · exact raise_deliversNone ht _

theorem doKeyParse_deliversNone (k : Fin 4) : (doKeyParse k s).DeliversNone d := by
  refine State.withToken_post fun bs => ?_
  split
  · exact h
  · exact h

theorem lDataValue_deliversNone : (lDataValue s).DeliversNone d := by
  unfold lDataValue
  split
  · exact (doDecParse_deliversNone h 2).andThen fun _ ht => ht
  · exact h

theorem lDataKey_deliversNone : (lDataKey s).DeliversNone d := by
  unfold lDataKey
  split
  · exact lDataValue_deliversNone (doRomLkp_deliveredEvents h _)
  · exact h

theorem lDataTokens_deliversNone : (lDataTokens s).DeliversNone d := by
  unfold lDataTokens
  split
  · exact (doKeyParse_deliversNone h 1).andThen fun _ ht => lDataKey_deliversNone ht
  · exact h

theorem doLData_deliversNone : (doLData s).DeliversNone d := by
  have hsplit : (doTSplit s).DeliversNone d := State.withBytes_post fun _ => h
  refine hsplit.andThen fun t ht => ?_
  have hmatch : (doIdMatch 0 t).DeliversNone d := State.withToken_post fun _ => ht
  split
  · exact hmatch.andThen fun _ hu => lDataTokens_deliversNone hu
  · exact ht

/-- A checksum mismatch is reported, not delivered (R196, R321). -/
theorem doLCksum_deliveredEvents : (doLCksum s).deliveredEvents = d := by
  simp only [doLCksum]
  split
  · exact h
  · exact (State.deliveredEvents_report _ _).trans h

theorem lineDispatch_deliversNone : (lineDispatch s).DeliversNone d := by
  unfold lineDispatch
  split
  next => exact doLCksum_deliveredEvents h
  next =>
    have hstrip : (doLStrip s).DeliversNone d := by
      unfold doLStrip
      split
      · trivial
      · exact h
    refine hstrip.andThen fun t ht => ?_
    split
    · exact doLData_deliversNone ht
    · exact ht

theorem asciiByte_deliversNone (b : Byte) : (asciiByte b s).DeliversNone d := by
  have hfeed (c : Byte) : (feedByte c s).deliveredEvents = d := by
    obtain ⟨crc, hc⟩ := feedByte_eq_setCrc c s
    rw [hc]
    exact h
  unfold asciiByte
  split
  next => exact raise_deliversNone h _
  next =>
    have hline := (bufAppend_deliversNone (hfeed lf) lf).andThen fun _ ht => lineDispatch_deliversNone ht
    exact hline.andThen fun _ ht => ht
  next => exact bufAppend_deliversNone (hfeed b) b

/-! A byte of an HDLC stream, and the validation and walk of a frame (R106, R228, R253). -/

theorem hdlcByte_deliversNone (b : Byte) : (hdlcByte b s).DeliversNone d := by
  unfold hdlcByte
  split
  next => exact h
  next => exact h
  next => exact bufAppend_deliversNone h b
  next => exact (bufAppend_deliversNone h flagByte).andThen fun _ ht => ht
  next => exact raise_deliversNone h _
  next => trivial

/-- An unknown element is reported, and no element delivers (R253 to R261). -/
theorem elementStep_deliversNone : (elementStep s).DeliversNone d := by
  refine need_deliversNone h ?_
  cases tagSel (s.elemByte 0)
  case octs =>
    refine need_deliversNone h (need_deliversNone h ?_)
    split
    · exact h
    · exact h
  case unk => exact (State.deliveredEvents_report _ _).trans h
  all_goals exact need_deliversNone h h

theorem elementLoop_deliversNone (bound : Nat) : (elementLoop bound s).DeliversNone d := by
  induction bound generalizing s with
  | zero =>
    unfold elementLoop
    split
    · exact h
    · trivial
  | succ bound ih =>
    unfold elementLoop
    split
    · exact h
    · exact (elementStep_deliversNone h).andThen fun _ ht => ih ht

theorem commitValue_deliversNone : (commitValue s).DeliversNone d := by
  unfold commitValue
  split
  next =>
    have hscale : (doSclScale (rawValue s.tlv) s.tlv.scale.toInt s).DeliversNone d := by
      unfold doSclScale
      split
      · exact h
      · trivial
    exact hscale.andThen fun _ ht => ht
  next => exact raise_deliversNone h _

theorem doCommit_deliversNone : (doCommit s).DeliversNone d := by
  have hslot : (commitSlot s).DeliversNone d := by
    simp only [commitSlot]
    split_ifs
    · exact commitValue_deliversNone (doRomLkp_deliveredEvents h _)
    · exact doRomLkp_deliveredEvents h _
    · exact h
  exact hslot.andThen fun _ ht => ht

/-- The required tag of an array or of a structure: it is there, or the operation raises (R235, R252). -/
theorem requireTag_deliversNone {tag : Byte} {k : State → Flow} (hk : (k s).DeliversNone d) :
    (requireTag tag k s).DeliversNone d := by
  refine need_deliversNone h ?_
  split
  · exact raise_deliversNone h _
  · exact need_deliversNone h hk

theorem structureStep_deliversNone : (structureStep s).DeliversNone d := by
  have hstruct : (doStruct (s.elemByte 1) s).DeliversNone d := by
    rw [doStruct_eq]
    exact requireTag_deliversNone h h
  exact (hstruct.andThen fun _ ht => elementLoop_deliversNone ht _).andThen fun _ hu => doCommit_deliversNone hu

theorem structureLoop_deliversNone (bound : Nat) : (structureLoop bound s).DeliversNone d := by
  induction bound generalizing s with
  | zero => exact h
  | succ bound ih =>
    unfold structureLoop
    split
    · exact h
    · exact (structureStep_deliversNone h).andThen fun _ ht => ih ht

theorem decodeOpening_deliversNone : (decodeOpening s).DeliversNone d := by
  have hdate : (doHDate ((doHHdr s).elemByte 0) (doHHdr s)).DeliversNone d :=
    need_deliversNone (s := doHHdr s) h h
  refine hdate.andThen fun t ht => ?_
  rw [doArray_eq]
  exact requireTag_deliversNone ht ht

/-- A frame that fails a check raises; a sound one is opened and walked (R228). -/
theorem doHValidate_deliversNone : (doHValidate s).DeliversNone d := by
  have habort (u : State) (hu : u.deliveredEvents = d) (e : ErrorCode) : (u.afterAbort e).deliveredEvents = d :=
    (u.deliveredEvents_afterAbort e).trans hu
  rcases Nat.lt_or_ge s.len 17 with hshort | hsize
  · rw [doHValidate_of_ended (validateChecks_of_short hshort)]
    exact habort s h _
  by_cases hlen : s.declared = s.len - 2
  case neg =>
    rw [doHValidate_of_ended (validateChecks_of_length hsize hlen)]
    exact habort s h _
  by_cases hfcs : s.frameSum = storedCheck s
  case neg =>
    rw [doHValidate_of_ended (validateChecks_of_check hsize hlen hfcs)]
    exact habort (s.setFcs _) h _
  rw [State.Sound.doHValidate_eq ⟨hsize, hlen, hfcs⟩]
  refine (decodeOpening_deliversNone (s := s.checked) h).andThen fun t ht => ?_
  exact (structureLoop_deliversNone ht _).andThen fun _ hu => hu

/-! The intake loops and `INVOKE` (R294, R297, R298). -/

theorem intake_deliversNone {byte : Byte → State → Flow} {done : State → Bool} {dry : State → State}
    (hbyte : ∀ b t, t.deliveredEvents = d → (byte b t).DeliversNone d)
    (hdry : ∀ t, (dry t).deliveredEvents = t.deliveredEvents)
    (j : Nat) : (intake byte done dry j s).DeliversNone d := by
  induction j generalizing s with
  | zero => exact h
  | succ j ih =>
    have harrive : (arriveNext s).deliveredEvents = d := by rw [arriveNext_eq]; exact h
    unfold intake
    split
    next => exact (hdry _).trans harrive
    next b q _ =>
      refine (hbyte b ((arriveNext s).setQueue q) harrive).andThen fun t ht => ?_
      split
      · exact ht
      · exact ih ht

theorem parseAscii_deliversNone (j : Nat) : (parseAscii j s).DeliversNone d := by
  rw [parseAscii_eq_intake]
  exact intake_deliversNone h (fun b _ ht => asciiByte_deliversNone ht b) (fun _ => rfl) j

theorem doFParseH_deliversNone : (doFParseH s).DeliversNone d := by
  have hdry (t : State) : (hdlcDry t).deliveredEvents = t.deliveredEvents := by
    unfold hdlcDry
    split
    · rfl
    · rfl
  unfold doFParseH
  split
  · exact doHValidate_deliversNone h
  · rw [parseHdlc_eq_intake]
    exact intake_deliversNone h (fun b _ ht => hdlcByte_deliversNone ht b) hdry _

/-- Without both flags set an `INVOKE` discards or parses (R294, R302). -/
theorem doInvoke_deliversNone (hflags : ¬ (s.agg.complete = true ∧ s.agg.valid = true)) :
    (doInvoke s).DeliversNone d := by
  unfold doInvoke
  split
  next hc =>
    rw [if_neg fun hv => hflags ⟨hc, hv⟩]
    exact h
  next =>
    split
    · exact parseAscii_deliversNone h _
    · exact doFParseH_deliversNone h

end

/-! ## The delivery condition (R302) -/

/-- What a step may append to the trace: deliveries only where the telegram was complete and valid before it, and then
nothing else. -/
def State.DeliversWhenReady (s t : State) : Prop :=
  ∃ evs, t.trace = s.trace ++ evs ∧
    ((∃ ev ∈ evs, ev.isDeliver = true) →
      s.agg.complete = true ∧ s.agg.valid = true ∧ ∀ ev ∈ evs, ev.isDeliver = true)

theorem State.DeliversWhenReady.of_trace_eq {s t : State} (h : t.trace = s.trace) : s.DeliversWhenReady t :=
  ⟨[], h.trans (List.append_nil _).symm, fun ⟨_, hmem, _⟩ => absurd hmem List.not_mem_nil⟩

/-- Where the deliveries stay, no event appended is one. -/
theorem State.DeliversWhenReady.of_deliveredEvents_eq {s t : State} (hprefix : s.trace <+: t.trace)
    (h : t.deliveredEvents = s.deliveredEvents) : s.DeliversWhenReady t := by
  obtain ⟨evs, hevs⟩ := hprefix
  have hnone : evs.filter Event.isDeliver = [] := by
    rw [State.deliveredEvents, State.deliveredEvents, ← hevs, List.filter_append] at h
    exact List.append_right_eq_self.1 h
  exact ⟨evs, hevs.symm, fun ⟨ev, hmem, hev⟩ => absurd hev (List.filter_eq_nil_iff.1 hnone ev hmem)⟩

/-- Beyond a legal cursor a drain stops, or its batch is empty (R293). -/
theorem doFDrain_of_gt {s : State} (h : 28 < s.agg.pubcur) :
    doFDrain s = .go s ∨ doFDrain s = .stop .noSlotToDeliver := by
  unfold doFDrain
  cases hk : min s.params.publishBatch s.agg.pubcur with
  | zero => exact .inl (if_neg (by omega))
  | succ k => exact .inr (by rw [deliverRun, doAggDlv_stops (.inr h)]; rfl)

/-- A drain appends deliveries only (R293, R295). -/
theorem doFDrain_appends (s : State) {E : State → Prop} :
    (doFDrain s).Post (fun t => ∃ evs, t.trace = s.trace ++ evs ∧ ∀ ev ∈ evs, ev.isDeliver = true) E := by
  rcases Nat.lt_or_ge 28 s.agg.pubcur with hbeyond | h28
  · obtain hgo | hstop := doFDrain_of_gt hbeyond
    · rw [hgo]
      exact ⟨[], (List.append_nil _).symm, fun _ hmem => absurd hmem List.not_mem_nil⟩
    · rw [hstop]
      trivial
  · rw [doFDrain_eq rfl h28]
    refine ⟨deliveries s.agg.slots (28 - s.agg.pubcur) (min s.params.publishBatch s.agg.pubcur), ?_,
      fun _ => isDeliver_of_mem_deliveries⟩
    split
    · rfl
    · rfl

theorem exec_invoke_deliversWhenReady {s t : State} (h : exec .invoke s = .next t) : s.DeliversWhenReady t := by
  by_cases hflags : s.agg.complete = true ∧ s.agg.valid = true
  · obtain ⟨hc, hv⟩ := hflags
    rw [invokeDispatch s, if_pos hc, if_pos hv] at h
    obtain ⟨evs, htrace, hall⟩ := (doFDrain_appends s).outcome h
    exact ⟨evs, htrace, fun _ => ⟨hc, hv, hall⟩⟩
  · have hinvoked : s.Invoked t := (doInvoke_meets s).post.outcome h
    obtain ⟨k, hev⟩ := hinvoked.evolves
    exact .of_deliveredEvents_eq hev.trace ((doInvoke_deliversNone rfl hflags).outcome h)

/-- What a port sample without `rst` selects (R101). -/
theorem exec_decodePort_deliversWhenReady {ev : HostEvent} {s t : State} (hrst : ev.rst = false)
    (h : exec (decodePort ev) s = .next t) : s.DeliversWhenReady t := by
  have hport : decodePort ev = commandSel ev.cmd := if_neg (ne_true_of_eq_false hrst)
  rw [hport] at h
  obtain ⟨r, hi⟩ | hi | hi := commandSel_cases ev.cmd
  all_goals rw [hi] at h
  · cases h
    exact .of_trace_eq rfl
  · exact exec_invoke_deliversWhenReady h
  · cases h
    exact .of_trace_eq rfl

theorem acceptEvent_eq_setEnv (s : State) : ∃ e, acceptEvent s = s.setEnv e := by
  unfold acceptEvent
  split
  · exact ⟨s.env, rfl⟩
  · exact ⟨_, rfl⟩

/-- Settles O12, by the port's operations: taking the event and settling it leave the trace and the flags alone. -/
theorem deliveryCondition : Obligations.DeliveryCondition := by
  intro s t hstep hrst
  obtain ⟨u, hexec, rfl⟩ := step_eq_next hstep
  obtain ⟨e, he⟩ := acceptEvent_eq_setEnv s
  rw [he] at hexec
  have hready : (s.setEnv e).DeliversWhenReady u := exec_decodePort_deliversWhenReady hrst hexec
  exact hready

end Sys2Proof.Machine
end

section
/-! PROOFS for the family of 60_exceptions.md. No host event halts the machine (R334); what an `INVOKE` adds to the trace,
and how a fatal error ends it (R326, R329, R333, R342). -/

namespace Sys2Proof.Machine

/-! ## Every host event is accepted (R334) -/

/-- Taking an event writes the environment only (R62, R299). -/
theorem acceptEvent_live (s : State) : (acceptEvent s).live = s.live := by
  obtain ⟨e, he⟩ := acceptEvent_eq_setEnv s
  rw [he]
  rfl

theorem acceptEvent_params (s : State) : (acceptEvent s).params = s.params := by
  obtain ⟨e, he⟩ := acceptEvent_eq_setEnv s
  rw [he]
  rfl

/-- What the host port can select stops nowhere in the invariant: only an `INVOKE` could, at a cursor above 28. -/
theorem exec_decodePort_next (ev : HostEvent) {s : State} (h : s.Inv) : ∃ t, exec (decodePort ev) s = .next t := by
  obtain ⟨p, hi⟩ | ⟨r, hi⟩ | hi | hi := decodePort_cases ev
  all_goals rw [hi]
  case inr.inr.inl =>
    obtain ⟨t, ht, -⟩ := (doInvoke_meets s).next h.pubcur_le
    exact ⟨t, ht⟩
  all_goals exact ⟨_, rfl⟩

/-- What the host port can select leaves a live machine live: RESET sets the bit, nothing else writes it (R361). -/
theorem exec_decodePort_live {ev : HostEvent} {s t : State} (hl : s.live = true)
    (h : exec (decodePort ev) s = .next t) : t.live = true := by
  by_cases hreset : ∃ p, decodePort ev = .reset p
  · obtain ⟨p, hp⟩ := hreset
    rw [hp] at h
    cases h
    rfl
  · obtain ⟨-, hkeep⟩ := configurationFixed _ _ _ h
    obtain ⟨-, hlive⟩ := hkeep (not_exists.1 hreset)
    exact hlive.trans hl

/-- Settles O4: the operation of the port has a next state, and taking the event and settling it touch the environment
alone. -/
theorem everyEventAccepted : Obligations.EveryEventAccepted := by
  intro s hs hl
  obtain ⟨t, hexec⟩ := exec_decodePort_next (nextEvent s) (acceptEvent_inv hs)
  have hstep : step s = .next (settle t) := by rw [step_of_accepted (.inl hl), hexec, settleOutcome]
  have hlive : t.live = true := exec_decodePort_live ((acceptEvent_live s).trans hl) hexec
  obtain ⟨hparams, -⟩ := configurationFixed _ _ _ hexec
  exact ⟨settle t, hstep, invKeptByStep s _ hs hstep, hlive, hparams.trans (acceptEvent_params s)⟩

/-! ## What a micro-operation reports (R320, R326) -/

/-- What a raise leaves of a state whose trace was in `T` (R329). -/
def State.AbortedIn (T : List Event → Prop) (t : State) : Prop :=
  ∃ (u : State) (e : ErrorCode), T u.trace ∧ t = u.afterAbort e

/-- Where it goes on the trace is still in `T`; where it raises, the abort sequence's report is all that is added. -/
abbrev Flow.TraceIn (T : List Event → Prop) (f : Flow) : Prop := f.Post (fun t => T t.trace) (State.AbortedIn T)

/-- A line taken in: the trace is in `T`, or a mismatched checksum was added to it and the telegram is complete
(R196, R321). -/
def State.LineTraceIn (T : List Event → Prop) (t : State) : Prop :=
  T t.trace ∨ (t.agg.complete = true ∧ ∃ l, T l ∧ t.trace = l ++ [.report .crcMismatch])

section
variable {T : List Event → Prop} {s : State} (h : T s.trace)
include h

theorem State.afterAbort_abortedIn (e : ErrorCode) : (s.afterAbort e).AbortedIn T := ⟨s, e, h, rfl⟩

theorem raise_traceIn (e : ErrorCode) : (raise e s).TraceIn T := State.afterAbort_abortedIn h e

theorem need_traceIn {n : Nat} {k : State → Flow} (hk : (k s).TraceIn T) : (need n s k).TraceIn T :=
  need_post (State.afterAbort_abortedIn h _) hk

theorem bufAppend_traceIn (b : Byte) : (bufAppend b s).TraceIn T := by
  obtain ⟨-, he⟩ | ⟨-, he⟩ := bufAppend_cases b s
  · rw [he]; exact h
  · rw [he]; exact State.afterAbort_abortedIn h _

theorem doRomLkp_traceIn (key : Key) : T (doRomLkp key s).trace := by
  obtain ⟨slot, -, he⟩ | ⟨-, he⟩ := doRomLkp_cases key s
  · rw [he]; exact h
  · rw [he]; exact h

/-! A byte of an ASCII stream (R103, R192, R200). -/

/-- The parser writes its own registers, or raises `MalformedValue` (R171, R327). -/
theorem doDecParse_traceIn (k : Fin 4) : (doDecParse k s).TraceIn T := by
  refine State.withToken_post fun bs => ?_
  have hinit : s.HasRead [] (s.setDec Dec.init) :=
    ⟨_, rfl, .whole (neg := false) (ip := []) (fun _ => nofun) (Nat.zero_le _)⟩
  have hrun : (decRun bs (s.setDec Dec.init)).TraceIn T := by
    refine (decRun_reads bs hinit).post.mono ?_ ?_
    · rintro _ ⟨d, rfl, -⟩
      exact h
    · rintro _ ⟨d, rfl⟩
      exact State.afterAbort_abortedIn (s := s.setDec d) h _
  refine hrun.andThen fun t ht => ?_
  unfold doDecEnd
  split
  · exact ht
  · exact raise_traceIn ht _

theorem lDataValue_traceIn : (lDataValue s).TraceIn T := by
  unfold lDataValue
  split
  · exact (doDecParse_traceIn h 2).andThen fun _ ht => ht
  · exact h

theorem lDataKey_traceIn : (lDataKey s).TraceIn T := by
  unfold lDataKey
  split
  · exact lDataValue_traceIn (doRomLkp_traceIn h _)
  · exact h

theorem lDataTokens_traceIn : (lDataTokens s).TraceIn T := by
  have hkey : (doKeyParse 1 s).TraceIn T := by
    refine State.withToken_post fun bs => ?_
    split
    · exact h
    · exact h
  unfold lDataTokens
  split
  · exact hkey.andThen fun _ ht => lDataKey_traceIn ht
  · exact h

theorem doLData_traceIn : (doLData s).TraceIn T := by
  have hsplit : (doTSplit s).TraceIn T := State.withBytes_post fun _ => h
  refine hsplit.andThen fun t ht => ?_
  have hmatch : (doIdMatch 0 t).TraceIn T := State.withToken_post fun _ => ht
  split
  · exact hmatch.andThen fun _ hu => lDataTokens_traceIn hu
  · exact ht

theorem doLCksum_lineTraceIn : (doLCksum s).LineTraceIn T := by
  rw [doLCksum_eq_ite]
  split
  · exact .inl h
  · exact .inr ⟨rfl, s.trace, h, rfl⟩

theorem lineDispatch_traceIn : (lineDispatch s).Post (State.LineTraceIn T) (State.AbortedIn T) := by
  unfold lineDispatch
  split
  next => exact doLCksum_lineTraceIn h
  next =>
    have hstrip : (doLStrip s).TraceIn T := by
      unfold doLStrip
      split
      · trivial
      · exact h
    refine hstrip.andThen fun t ht => ?_
    split
    · exact (doLData_traceIn ht).mono (fun _ => .inl) fun _ => id
    · exact .inl ht

theorem asciiByte_traceIn (b : Byte) : (asciiByte b s).Post (State.LineTraceIn T) (State.AbortedIn T) := by
  have happend (c : Byte) : (bufAppend c (feedByte c s)).TraceIn T := by
    obtain ⟨crc, hc⟩ := feedByte_eq_setCrc c s
    rw [hc]
    exact bufAppend_traceIn (s := s.setCrc crc) h c
  unfold asciiByte
  split
  next => exact raise_traceIn h _
  next => exact ((happend lf).andThen fun _ ht => lineDispatch_traceIn ht).andThen fun _ hu => hu
  next => exact (happend b).mono (fun _ => .inl) fun _ => id

/-! A byte of an HDLC stream, and the checks and the opening of a frame (R106, R228). -/

theorem hdlcByte_traceIn (b : Byte) : (hdlcByte b s).TraceIn T := by
  unfold hdlcByte
  split
  next => exact h
  next => exact h
  next => exact bufAppend_traceIn h b
  next => exact (bufAppend_traceIn h flagByte).andThen fun _ ht => ht
  next => exact raise_traceIn h _
  next => trivial

theorem validateChecks_traceIn : (validateChecks s).TraceIn T := by
  rcases Nat.lt_or_ge s.len 17 with hshort | hsize
  · rw [validateChecks_of_short hshort]
    exact State.afterAbort_abortedIn h _
  by_cases hlen : s.declared = s.len - 2
  case neg =>
    rw [validateChecks_of_length hsize hlen]
    exact State.afterAbort_abortedIn h _
  by_cases hfcs : s.frameSum = storedCheck s
  case neg =>
    rw [validateChecks_of_check hsize hlen hfcs]
    exact State.afterAbort_abortedIn (s := s.setFcs s.frameSum) h _
  rw [State.Sound.validateChecks_eq ⟨hsize, hlen, hfcs⟩]
  exact h

theorem requireTag_traceIn {tag : Byte} {k : State → Flow} (hk : (k s).TraceIn T) :
    (requireTag tag k s).TraceIn T := by
  refine need_traceIn h ?_
  split
  · exact raise_traceIn h _
  · exact need_traceIn h hk

theorem decodeOpening_traceIn : (decodeOpening s).TraceIn T := by
  have hdate : (doHDate ((doHHdr s).elemByte 0) (doHHdr s)).TraceIn T := need_traceIn (s := doHHdr s) h h
  refine hdate.andThen fun t ht => ?_
  rw [doArray_eq]
  exact requireTag_traceIn ht ht

theorem doStruct_traceIn (cnt : Byte) : (doStruct cnt s).TraceIn T := by
  rw [doStruct_eq]
  exact requireTag_traceIn h h

theorem doCommit_traceIn : (doCommit s).TraceIn T := by
  have hvalue {t : State} (ht : T t.trace) : (commitValue t).TraceIn T := by
    have hscale : (doSclScale (rawValue t.tlv) t.tlv.scale.toInt t).TraceIn T := by
      unfold doSclScale
      split
      · exact ht
      · trivial
    unfold commitValue
    split
    · exact hscale.andThen fun _ hu => hu
    · exact raise_traceIn ht _
  have hslot : (commitSlot s).TraceIn T := by
    simp only [commitSlot]
    split_ifs
    · exact hvalue (doRomLkp_traceIn h _)
    · exact doRomLkp_traceIn h _
    · exact h
  exact hslot.andThen fun _ ht => ht

/-! The walk of a frame, for a `T` closed under the soft report of an unknown tag (R253, R261, R330). -/

variable (hsoft : ∀ l, T l → T (l ++ [.report .unexpectedTag]))
include hsoft

theorem elementStep_traceIn : (elementStep s).TraceIn T := by
  refine need_traceIn h ?_
  cases tagSel (s.elemByte 0)
  case octs =>
    refine need_traceIn h (need_traceIn h ?_)
    split
    · exact h
    · exact h
  case unk => exact hsoft s.trace h
  all_goals exact need_traceIn h h

theorem elementLoop_traceIn (bound : Nat) : (elementLoop bound s).TraceIn T := by
  induction bound generalizing s with
  | zero =>
    unfold elementLoop
    split
    · exact h
    · trivial
  | succ bound ih =>
    unfold elementLoop
    split
    · exact h
    · exact (elementStep_traceIn h hsoft).andThen fun _ ht => ih ht

theorem structureStep_traceIn : (structureStep s).TraceIn T :=
  ((doStruct_traceIn h _).andThen fun _ ht => elementLoop_traceIn ht hsoft _).andThen fun _ hu => doCommit_traceIn hu

theorem structureLoop_traceIn (bound : Nat) : (structureLoop bound s).TraceIn T := by
  induction bound generalizing s with
  | zero => exact h
  | succ bound ih =>
    unfold structureLoop
    split
    · exact h
    · exact (structureStep_traceIn h hsoft).andThen fun _ ht => ih ht

theorem doHValidate_traceIn : (doHValidate s).TraceIn T :=
  (((validateChecks_traceIn h).andThen fun _ ht => decodeOpening_traceIn ht).andThen fun _ ht =>
    structureLoop_traceIn ht hsoft _).andThen fun _ ht => ht

end

/-! ## What an INVOKE without a complete telegram adds to the trace (R297, R298) -/

/-- Reports of unknown tags, `n` of them. -/
def softReports (n : Nat) : List Event := List.replicate n (.report .unexpectedTag)

/-- The trace of `s` and soft reports behind it. -/
def State.SoftTrace (s : State) (l : List Event) : Prop := ∃ n, l = s.trace ++ softReports n

theorem State.softTrace_self (s : State) : s.SoftTrace s.trace := ⟨0, (List.append_nil _).symm⟩

theorem State.SoftTrace.soft {s : State} {l : List Event} (h : s.SoftTrace l) :
    s.SoftTrace (l ++ [.report .unexpectedTag]) := by
  obtain ⟨n, rfl⟩ := h
  refine ⟨n + 1, ?_⟩
  rw [softReports, softReports, List.replicate_succ', List.append_assoc]

/-- The events a parsing `INVOKE` adds, by how it ends. -/
inductive State.ParseReports (s t : State) : Prop where
  /-- no error -/
  | silent (h : t.trace = s.trace)
  /-- a checksum line that disagreed, its effect deferred to the next `INVOKE` (R321) -/
  | mismatch (hp : s.protocol = .ascii) (h : t.trace = s.trace ++ [.report .crcMismatch])
  /-- a frame with unknown tags that completed (R330) -/
  | validated (n : Nat) (hc : t.agg.complete = true) (hv : t.agg.valid = true) (h : t.trace = s.trace ++ softReports n)
  /-- a fatal error, in a frame perhaps behind unknown tags (R329) -/
  | raised (n : Nat) (e : ErrorCode) (h : t.trace = s.trace ++ (softReports n ++ [.report e])) (ha : t.Aborted)

theorem State.AbortedIn.parseReports_soft {s t : State} (h : t.AbortedIn s.SoftTrace) : s.ParseReports t := by
  obtain ⟨u, e, ⟨n, htrace⟩, rfl⟩ := h
  refine .raised n e ?_ (u.afterAbort_aborted e)
  rw [← List.append_assoc, ← htrace]
  rfl

theorem State.AbortedIn.parseReports {s t : State} (h : t.AbortedIn (· = s.trace)) : s.ParseReports t := by
  obtain ⟨u, e, htrace, rfl⟩ := h
  exact State.AbortedIn.parseReports_soft ⟨u, e, htrace ▸ s.softTrace_self, rfl⟩

theorem State.LineTraceIn.parseReports {s t : State} (h : t.LineTraceIn (· = s.trace)) (hp : s.protocol = .ascii) :
    s.ParseReports t := by
  obtain h | ⟨-, l, rfl, h⟩ := h
  · exact .silent h
  · exact .mismatch hp h

/-- Both walks of a micro-operation at once. -/
theorem Flow.Meets.and_post {P : Prop} {G G' E E' : State → Prop} {f : Flow} (h : f.Meets P G E) (h' : f.Post G' E') :
    f.Meets P (fun t => G t ∧ G' t) fun t => E t ∧ E' t := by
  cases f with
  | go t => exact ⟨h, h'⟩
  | ended t => exact ⟨h, h'⟩
  | stop r => exact h

theorem asciiByte_parseReports (b : Byte) {s u : State} (hp : s.protocol = .ascii) (hu : u.trace = s.trace) :
    (asciiByte b u).Meets True
      (fun t => u.Evolves 0 0 t ∧ s.ParseReports t ∧ (t.agg.complete = false → t.trace = s.trace))
      (fun t => u.Evolves 0 0 t ∧ s.ParseReports t) := by
  have htrace := asciiByte_traceIn (T := (· = s.trace)) hu b
  refine ((asciiByte_meets b u).and_post htrace).mono id ?_ ?_
  · rintro t ⟨hstep, hline⟩
    refine ⟨hstep.evolves, hline.parseReports hp, fun hidle => ?_⟩
    obtain h | ⟨hc, -⟩ := hline
    · exact h
    · rw [hidle] at hc; cases hc
  · rintro t ⟨hraised, habort⟩
    exact ⟨hraised.evolves, habort.parseReports⟩

theorem parseAscii_parseReports (j : Nat) {s : State} (hp : s.protocol = .ascii) :
    (parseAscii j s).Post s.ParseReports s.ParseReports := by
  have hloop := intake_meets (byte := asciiByte) (done := fun t => t.agg.complete) (dry := id)
    (I := fun t => t.trace = s.trace) (O := s.ParseReports) (fun _ _ h => h) (fun _ => .silent)
    (fun t h => ⟨.refl t, .silent h⟩) (fun b _ => asciiByte_parseReports b hp) j (s := s) rfl
  rw [parseAscii_eq_intake]
  exact hloop.post.mono (fun _ ⟨_, hreports⟩ => hreports) fun _ ⟨_, hreports⟩ => hreports

theorem hdlcDry_trace (s : State) : (hdlcDry s).trace = s.trace := by
  unfold hdlcDry
  split
  · rfl
  · rfl

/-- The framer reports only where it raises (R225). -/
theorem hdlcByte_parseReports (b : Byte) {s u : State} (hne : u.hstate ≠ .foundFrame) (hu : u.trace = s.trace) :
    (hdlcByte b u).Meets True (fun t => u.Evolves 0 0 t ∧ t.trace = s.trace)
      (fun t => u.Evolves 0 0 t ∧ s.ParseReports t) := by
  have htrace := hdlcByte_traceIn (T := (· = s.trace)) hu b
  exact ((hdlcByte_meets b u).and_post htrace).mono (fun _ => hne) (fun _ ⟨hstep, h⟩ => ⟨hstep.evolves, h⟩)
    fun _ ⟨hraised, habort⟩ => ⟨hraised.evolves, habort.parseReports⟩

theorem parseHdlc_parseReports (j : Nat) {s : State} (hne : s.hstate ≠ .foundFrame) :
    (parseHdlc j s).Post s.ParseReports s.ParseReports := by
  have hloop := intake_meets (byte := hdlcByte) (done := fun t => decide (t.hstate = .foundFrame)) (dry := hdlcDry)
    (I := fun t => t.hstate ≠ .foundFrame ∧ t.trace = s.trace) (O := s.ParseReports) (fun _ _ h => h)
    (fun _ ⟨_, h⟩ => .silent h)
    (fun t ⟨_, h⟩ => ⟨(hdlcDry_step t).evolves, .silent ((hdlcDry_trace t).trans h)⟩)
    (fun b _ ⟨hopen, hu⟩ => (hdlcByte_parseReports b hopen hu).mono id
      (fun _ ⟨hev, h⟩ => ⟨hev, .silent h, fun hd => ⟨of_decide_eq_false hd, h⟩⟩) fun _ => id)
    j (s := s) ⟨hne, rfl⟩
  rw [parseHdlc_eq_intake]
  exact hloop.post.mono (fun _ ⟨_, hreports⟩ => hreports) fun _ ⟨_, hreports⟩ => hreports

theorem doHValidate_parseReports (s : State) : (doHValidate s).Post s.ParseReports s.ParseReports := by
  have htrace : (doHValidate s).TraceIn s.SoftTrace := doHValidate_traceIn s.softTrace_self fun _ hl => hl.soft
  refine ((doHValidate_meets s).and_post htrace).post.mono ?_ fun _ ⟨_, habort⟩ => habort.parseReports_soft
  rintro _ ⟨⟨u, hq, rfl⟩, n, hn⟩
  have hvalid : u.agg.valid = true := (congrArg Agg.valid hq.agg : u.agg.valid = _)
  exact .validated n rfl hvalid hn

/-- Without a complete telegram an `INVOKE` parses (R294). -/
theorem doInvoke_parseReports {s : State} (hc : s.agg.complete = false) :
    (doInvoke s).Post s.ParseReports s.ParseReports := by
  unfold doInvoke
  rw [if_neg (ne_true_of_eq_false hc)]
  split
  next hp => exact parseAscii_parseReports _ hp
  next =>
    unfold doFParseH
    split
    next => exact doHValidate_parseReports s
    next hne => exact parseHdlc_parseReports _ hne

/-- With a complete telegram an `INVOKE` delivers or discards, and reports nothing (R295, R296). -/
theorem doInvoke_delivers {s : State} (hc : s.agg.complete = true) {E : State → Prop} :
    (doInvoke s).Post (fun t => ∃ evs, t.trace = s.trace ++ evs ∧ ∀ ev ∈ evs, ev.isDeliver = true) E := by
  unfold doInvoke
  rw [if_pos hc]
  split
  · exact doFDrain_appends s
  · exact ⟨[], (List.append_nil _).symm, nofun⟩

/-! ## A fatal error ends its INVOKE (R326, R329, R333, R342) -/

theorem fatalIn_unexpectedTag (p : Protocol) : fatalIn p .unexpectedTag = false := rfl

theorem eq_unexpectedTag_of_mem_softReports {n : Nat} {e : ErrorCode} (h : .report e ∈ softReports n) :
    e = .unexpectedTag := Event.report.inj (List.eq_of_mem_replicate h)

/-- What the statement says of the events `evs` added from `s` to `t`. -/
def State.FatalEnds (s t : State) (evs : List Event) : Prop :=
  (∀ e, .report e ∈ evs → fatalIn s.protocol e = true → evs.getLast? = some (.report e) ∧ t.Aborted) ∧
  (.report .unexpectedTag ∈ evs →
    (t.agg.complete = true ∧ t.agg.valid = true) ∨ ((∃ e, evs.getLast? = some (.report e)) ∧ t.Aborted)) ∧
  (s.agg.complete = false → ∀ ev ∈ evs.dropLast, ev = .report .unexpectedTag)

theorem State.fatalEnds_of_no_report {s t : State} {evs : List Event} (h : ∀ e, .report e ∉ evs)
    (hlast : s.agg.complete = false → evs = []) : s.FatalEnds t evs := by
  refine ⟨fun e he => absurd he (h e), fun he => absurd he (h _), fun hc => ?_⟩
  rw [hlast hc]
  exact nofun

theorem State.ParseReports.fatalEnds {s t : State} (h : s.ParseReports t) :
    ∃ evs, t.trace = s.trace ++ evs ∧ s.FatalEnds t evs := by
  obtain htrace | ⟨hp, htrace⟩ | ⟨n, hc, hv, htrace⟩ | ⟨n, e, htrace, habort⟩ := h
  case silent =>
    exact ⟨[], htrace.trans (List.append_nil _).symm, State.fatalEnds_of_no_report (fun _ => nofun) fun _ => rfl⟩
  case mismatch =>
    refine ⟨_, htrace, fun e he hfatal => ?_, fun he => ?_, fun _ => nofun⟩
    · cases List.mem_singleton.1 he
      rw [hp] at hfatal
      cases hfatal
    · cases List.mem_singleton.1 he
  case validated =>
    refine ⟨_, htrace, fun e he hfatal => ?_, fun _ => .inl ⟨hc, hv⟩,
      fun _ ev hev => List.eq_of_mem_replicate (List.mem_of_mem_dropLast hev)⟩
    rw [eq_unexpectedTag_of_mem_softReports he, fatalIn_unexpectedTag] at hfatal
    cases hfatal
  case raised =>
    refine ⟨_, htrace, fun e' he hfatal => ?_, fun _ => .inr ⟨⟨e, List.getLast?_concat⟩, habort⟩, fun _ ev hev => ?_⟩
    · obtain hmem | hmem := List.mem_append.1 he
      · rw [eq_unexpectedTag_of_mem_softReports hmem, fatalIn_unexpectedTag] at hfatal
        cases hfatal
      · cases List.mem_singleton.1 hmem
        exact ⟨List.getLast?_concat, habort⟩
    · rw [List.dropLast_concat] at hev
      exact List.eq_of_mem_replicate hev

/-- Settles O13: a telegram that is complete is delivered or discarded without a report; a parse ends in one of the four
ways of `ParseReports`. -/
theorem fatalErrorEndsInvoke : Obligations.FatalErrorEndsInvoke := by
  intro s t h
  by_cases hc : s.agg.complete = true
  · obtain ⟨evs, htrace, hdeliver⟩ := (doInvoke_delivers hc).outcome h
    have hnone : ∀ e, .report e ∉ evs := fun e he => nomatch hdeliver _ he
    exact ⟨evs, htrace, State.fatalEnds_of_no_report hnone fun hidle => absurd hc (ne_true_of_eq_false hidle)⟩
  · have hreports : s.ParseReports t := (doInvoke_parseReports (Bool.eq_false_of_not_eq_true hc)).outcome h
    exact hreports.fatalEnds

end Sys2Proof.Machine
end

section
/-! PROOFS for the family of 70_reset_and_hazards.md. The state after reset (R361), the machine before its first RESET
(U20), and the one state all ways back to scanning lead to (R362). -/

namespace Sys2Proof.Machine

/-! ## The state after reset (R361) -/

/-- The spec's default parameters are in R8's ranges. -/
theorem Params.default_legal : LegalParams Params.default :=
  ⟨by decide, by decide, by decide, nofun, List.nodup_nil, by decide, by decide, rfl, le_rfl⟩

theorem State.reset_aborted : State.reset.Aborted := ⟨rfl, rfl, Agg.init_atRest⟩

theorem State.reset_bufferOk : State.reset.BufferOk := ⟨rfl, rfl, Nat.zero_le _⟩

/-- Settles O2: an aborted machine with legal parameters meets the invariant, and RESET(ascii) writes what is there. -/
theorem invAtReset : Obligations.InvAtReset := by
  have hslots : State.reset.SlotInv := .of_atRest Params.default_legal Agg.init_atRest
  obtain ⟨-, hordinary⟩ := hslots
  exact ⟨State.reset_aborted.inv Params.default_legal State.reset_bufferOk, State.reset_aborted, hordinary, rfl, rfl⟩

/-! ## Before the first RESET (R361, U20) -/

/-- Settles O5: `hostStep` accepts a sample of a machine that is not live only with `rst`, and that sample is RESET. -/
theorem beforeFirstReset : Obligations.BeforeFirstReset := by
  intro s hl
  refine ⟨fun hport => ?_, fun ev rest hport => ?_⟩
  · have hidle : nextEvent s = HostEvent.idle := by rw [nextEvent, hport]; rfl
    exact step_of_not_accepted hl (by rw [hidle]; rfl)
  · have hev : nextEvent s = ev := by rw [nextEvent, hport]; rfl
    refine ⟨fun hrst => step_of_not_accepted hl (by rw [hev, hrst]), fun hrst => ?_⟩
    have hreset : decodePort ev = .reset ev.protocol := if_pos hrst
    refine ⟨settle (doReset ev.protocol (acceptEvent s)), ?_, rfl, rfl, doReset_aborted ev.protocol (acceptEvent s)⟩
    rw [step_of_accepted (.inr (by rw [hev, hrst])), hev, hreset]
    rfl

/-! ## The ways to the initial state (R362) -/

/-- With a complete telegram the buffer is empty and no frame is open, so `AGG.INIT` alone is the way to scanning
(R296, R362). -/
theorem State.Inv.aggInit_eq_toScanning {s : State} (h : s.Inv) (hc : s.agg.complete = true) :
    s.aggInit = s.toScanning := by
  obtain ⟨-, -, -, -, -, hdone, -, -⟩ := h
  obtain ⟨hlen, hh⟩ := hdone hc
  rw [State.toScanning, ← hlen, ← hh]
  rfl

/-- Settles O7: the state is `toScanning`, which RESET, ABORT and every raise share; a complete telegram reaches it by
`AGG.INIT`. -/
theorem waysToInitialState : Obligations.WaysToInitialState := by
  intro s hs
  refine ⟨s.toScanning, rfl, rfl, fun e => ⟨rfl, rfl⟩, fun _ => ⟨rfl, rfl, rfl⟩, fun hshort => ?_, fun hc _ => ?_,
    fun hc _ hlast => ?_⟩
  · exact congrArg Flow.outcome (doVSize_of_lt hshort)
  · exact congrArg Host.Outcome.next (hs.aggInit_eq_toScanning hc)
  · have hdrain := doFDrain_eq (Nat.min_eq_right hlast) hs.pubcur_le
    rw [if_pos rfl] at hdrain
    refine (congrArg Flow.outcome hdrain).trans ?_
    rw [← hs.aggInit_eq_toScanning hc]
    rfl

end Sys2Proof.Machine
end
